-- ==== Sys2Proof/Word.lean ====
section
/-! DEFINITION. The data units of the engine: the byte, the transport's return word, and the six-byte Raw Response.
Rules: spec/00_scope.md R3, R4, R5, R6; spec/10_state.md R12. -/

namespace Sys2Proof

/-- The data unit, an unsigned 8-bit byte; bit 0 is the least significant (R3, R5). -/
abbrev Byte := BitVec 8

/-- A transport return value or an error code: `ERR_W` = 32 bits, two's complement (R4, R57). -/
abbrev Ret := BitVec 32

/-- The Raw Response: six bytes, `b0` the first byte received and `b5` the last (R6, R12, R30). -/
structure RawResponse where
  b0 : Byte
  b1 : Byte
  b2 : Byte
  b3 : Byte
  b4 : Byte
  b5 : Byte
  deriving DecidableEq, Repr

/-- `RB[i]` (R6). -/
def RawResponse.get (r : RawResponse) : Fin 6 → Byte
  | 0 => r.b0
  | 1 => r.b1
  | 2 => r.b2
  | 3 => r.b3
  | 4 => r.b4
  | 5 => r.b5

/-- The six bytes in index order (R6). -/
def RawResponse.bytes (r : RawResponse) : List Byte := [r.b0, r.b1, r.b2, r.b3, r.b4, r.b5]

end Sys2Proof
end

