-- ==== Sys2Proof/Config.lean ====
section
/-! DEFINITION. What is fixed for the block: the constants of spec/00_scope.md R3 and spec/10_state.md R16, R17, and
the parameters that stay open (spec/92_eei_decisions.md D9, D17, D18, D24) or are drawn freely (D14), each an opaque
constant with no body. -/

namespace Sys2Proof.Config

/-- `N_RESP`: the response length in bytes (R3). -/
def nResp : Nat := 6

/-- The trigger frame `TRIG` (R3, R53). -/
def trigFrame : List Byte := [0x00#8]

/-- The first handshake frame `INIT1`, index 0 transmitted first (R3, R29, R54). -/
def init1Frame : List Byte := [0xF0#8, 0x55#8]

/-- The second handshake frame `INIT2` (R3, R29, R54). -/
def init2Frame : List Byte := [0xFB#8, 0x00#8]

/-- Lower bound of `T_SETTLE` in milliseconds, inclusive (R3). -/
def settleLoMs : ℚ := 10

/-- Upper bound of `T_SETTLE` in milliseconds, exclusive (R3). -/
def settleHiMs : ℚ := 20

/-- `T_INIT_GAP` in microseconds (R3). -/
def initGapUs : Nat := 1000

/-- `POLL_MIN`, in milliseconds (R16). -/
def pollMinMs : Nat := 50

/-- `POLL_MAX`, in milliseconds (R16). -/
def pollMaxMs : Nat := 50

/-- `POLL_NOM`, in milliseconds (R16). -/
def pollNomMs : Nat := 50

/-- What the lifecycle collaborator declares to the sink for one axis (R17). The engine applies none of it. -/
structure AxisCapability where
  minimum : Nat
  maximum : Nat
  fuzz : Nat
  flat : Nat
  deriving DecidableEq, Repr

/-- Axis X as declared (R17). -/
def axisX : AxisCapability := ⟨30, 220, 4, 8⟩

/-- Axis Y as declared (R17). -/
def axisY : AxisCapability := ⟨40, 200, 4, 8⟩

/-- How many key identifiers are declared: C, Z and eleven that are never reported (R17, R64). -/
def declaredKeys : Nat := 13

/-- How many of the declared keys the engine never reports (R17, R64). -/
def reservedKeys : Nat := 11

/-- FREE VALUE: the bits of `E_IO` below its sign bit (D9). Log entry 7. -/
opaque eIOLow : BitVec 31

/-- `E_IO`, the generic I/O error: open, but a negative 32-bit integer (R4, R35, D9). Log entry 7. -/
def eIO : Ret := 1#1 ++ eIOLow

/-- FREE VALUE: the number behind the n-th draw of an engine's own settle-delay generator (R67, R123, D14). Log entry
6. -/
opaque settleDraw (timer n : Nat) : ℚ

/-- The duration in milliseconds of the n-th settle delay of a generator: 10 at the least and below 20, and nothing else
is known of it, nor of any two together (R67, R137, D14). Log entry 6. -/
def settleDelayMs (timer n : Nat) : ℚ := settleLoMs + (settleHiMs - settleLoMs) * Int.fract (settleDraw timer n)

/-- Two numbers, different and otherwise arbitrary, made of free values: `base`, `base + gap + 1`, in either order. -/
def distinctPair (base gap : Nat) (swap : Bool) : Nat × Nat :=
  if swap then (base + gap + 1, base) else (base, base + gap + 1)

/-- FREE VALUE: the smaller key identifier (D18). Log entry 8. -/
opaque keyBase : Nat
/-- FREE VALUE: how far apart the two key identifiers are, less one (D18). Log entry 8. -/
opaque keyGap : Nat
/-- FREE VALUE: which of the two keys has the larger identifier (D18). Log entry 8. -/
opaque keySwap : Bool
/-- FREE VALUE: the smaller axis identifier (D18). Log entry 8. -/
opaque axisBase : Nat
/-- FREE VALUE: how far apart the two axis identifiers are, less one (D18). Log entry 8. -/
opaque axisGap : Nat
/-- FREE VALUE: which of the two axes has the larger identifier (D18). Log entry 8. -/
opaque axisSwap : Bool

/-- The number of `KEY_C` and of `KEY_Z` toward the sink: open and distinct (R59, D18). -/
def keyNumbers : Nat × Nat := distinctPair keyBase keyGap keySwap

/-- The number of `ABS_X` and of `ABS_Y` toward the sink: open and distinct (R59, D18). -/
def axisNumbers : Nat × Nat := distinctPair axisBase axisGap axisSwap

/-- FREE VALUE: `DEV_ADDR`, inside the transport handle, never seen by the engine (R26, R42, D17). Log entry 9. -/
opaque devAddr : Nat

/-- FREE VALUE: whether engine number `engine`, stopped by a fault, still holds its bus at turn `turn` of a system: after
an overlap nothing is promised of the bus (R99). Log entry 17. -/
opaque strayHold (engine turn : Nat) : Bool

/-- FREE VALUE: `F_CLK`, on which no rule depends (R138, D24). Log entry 9. -/
opaque fClk : Nat

end Sys2Proof.Config
end

