-- ==== Sys2Proof/Syntax.lean ====
section
/-! DEFINITION. The instruction set: one constructor of `Instr` for each of the 25 rows of spec/opcode_table.json, the
six formats of spec/30_encoding.md R51, and the encoded words in those formats. -/

namespace Sys2Proof

/-- The six formats (R51). -/
inductive Format where
  /-- `CMD`: a 2-bit command code, host to engine. -/
  | cmd
  /-- `W1`: a one-byte write frame. -/
  | w1
  /-- `W2`: a two-byte write frame. -/
  | w2
  /-- `R6`: a six-byte read frame. -/
  | r6
  /-- `UOP`: a 4-bit sequencer step code. -/
  | uop
  /-- `OP`: a named operation, with no binary form. -/
  | op
  deriving DecidableEq, Repr

/-- The length in bits a format fixes, whatever the content (R51, R65). -/
def Format.width : Format → Nat
  | .cmd => 2
  | .w1 => 8
  | .w2 => 16
  | .r6 => 48
  | .uop => 4
  | .op => 0

/-- The four named operations of the source (R66). -/
inductive OpName where
  | init
  | readState
  | decode
  | poll
  deriving DecidableEq, Repr

/-- A word in one of the six formats (R51). -/
inductive Encoded where
  | cmd (code : BitVec 2)
  | w1 (b0 : Byte)
  | w2 (b0 b1 : Byte)
  | r6 (raw : RawResponse)
  | uop (code : BitVec 4)
  | op (name : OpName)
  deriving DecidableEq, Repr

/-- The format a word is in. -/
def Encoded.format : Encoded → Format
  | .cmd _ => .cmd
  | .w1 _ => .w1
  | .w2 _ _ => .w2
  | .r6 _ => .r6
  | .uop _ => .uop
  | .op _ => .op

/-- One constructor per row of spec/opcode_table.json. Only RESP has operands (R52, R53, R54, R55, R60, R66). -/
inductive Instr where
  /-- ATTACH, command `00` (R87). -/
  | attach
  /-- TICK, command `01` (R88). -/
  | tick
  /-- DETACH, command `10` (R96). -/
  | detach
  /-- H_SEND1, step `0001` (R74). -/
  | hSend1
  /-- H_BUSY, step `0010` (R75). -/
  | hBusy
  /-- H_SEND2, step `0011` (R76). -/
  | hSend2
  /-- R_WAIT1, step `0100` (R67). -/
  | rWait1
  /-- R_TRIG, step `0101` (R68). -/
  | rTrig
  /-- R_WAIT2, step `0110` (R69). -/
  | rWait2
  /-- R_RECV, step `0111` (R70). -/
  | rRecv
  /-- P_DECODE, step `1000` (R89). -/
  | pDecode
  /-- P_KEY_C, step `1001` (R90). -/
  | pKeyC
  /-- P_KEY_Z, step `1010` (R91). -/
  | pKeyZ
  /-- P_ABS_X, step `1011` (R92). -/
  | pAbsX
  /-- P_ABS_Y, step `1100` (R93). -/
  | pAbsY
  /-- P_SYNC, step `1101` (R94). -/
  | pSync
  /-- P_DIAG, step `1110` (R95). -/
  | pDiag
  /-- TRIG, the trigger frame (R53). -/
  | trig
  /-- INIT1, the first handshake frame (R54). -/
  | init1
  /-- INIT2, the second handshake frame (R54). -/
  | init2
  /-- RESP, the response frame, with the fields X, Y, A2, A3, A4, RSV, CN, ZN of R55. -/
  | resp (x y a2 a3 a4 : Byte) (rsv : BitVec 6) (cn zn : BitVec 1)
  /-- INIT, `initialize(transport)` (R73). -/
  | init
  /-- READ_STATE, `read_state(transport)` (R71). -/
  | readState
  /-- DECODE, `decode(raw)` (R79). -/
  | decode
  /-- POLL, `on_poll_tick(device_handle)` (R88). -/
  | poll
  deriving DecidableEq, Repr

end Sys2Proof
end

