-- ==== Sys2Proof/Machine/State.lean ====
section
/-! DEFINITION. The state of one engine (spec/10_state.md R9 to R15, R19, R22), the inputs and outputs at its boundary
(spec/30_encoding.md R52, R57, R59), the fault and refusal reasons, and the state after reset. -/

namespace Sys2Proof.Machine

/-- `LS`, the lifecycle register (R10). -/
inductive Lifecycle where
  | uninitialized
  | polling
  | stopped
  | failed
  deriving DecidableEq, Repr

/-- `SEQ`, the sequencer step register: `IDLE` and the fourteen steps (R11, R60). The reserved code `1111` is no value
of it (R63). -/
inductive SeqStep where
  | idle
  | hSend1
  | hBusy
  | hSend2
  | rWait1
  | rTrig
  | rWait2
  | rRecv
  | pDecode
  | pKeyC
  | pKeyZ
  | pAbsX
  | pAbsY
  | pSync
  | pDiag
  deriving DecidableEq, Repr

/-- `ST`, the command status register (R15, R58). -/
inductive Status where
  /-- No command has completed since reset. -/
  | none
  | ok
  | attachError
  | refused
  deriving DecidableEq, Repr

/-- The Decoded State `DS` (R13). -/
structure DecodedState where
  ax : Byte
  ay : Byte
  bc : Bool
  bz : Bool
  deriving DecidableEq, Repr

/-- The key identifiers the engine can report (R59, R64). Their numbers are open (`Config.keyNumbers`). -/
inductive KeyId where
  | keyC
  | keyZ
  deriving DecidableEq, Repr

/-- The axis identifiers the engine can report (R59, R64). Their numbers are open (`Config.axisNumbers`). -/
inductive AxisId where
  | absX
  | absY
  deriving DecidableEq, Repr

/-- The three messages to the event sink (R59, R119). -/
inductive SinkMessage where
  | reportKey (id : KeyId) (pressed : Bool)
  | reportAbs (axis : AxisId) (value : Nat)
  | sync
  deriving DecidableEq, Repr

/-- What a `receive` returns (R32): `ret`, a count or an error code; the first six bytes in the order received, of which
the first `ret` mean something; and any bytes beyond them. Log entry 4. -/
structure RecvAnswer where
  ret : Ret
  data : RawResponse
  more : List Byte
  deriving DecidableEq, Repr

/-- A call of the Transport Adapter with its answer (R31, R32). -/
inductive TransportCall where
  | send (frame : List Byte) (ret : Ret)
  | recv (maxCount : Nat) (answer : RecvAnswer)
  deriving DecidableEq, Repr

/-- The two kinds of waiting, which must stay two (R134). -/
inductive Delay where
  /-- The yielding settle delay; its duration is `Config.settleDelayMs timer draw` (R67, R123). -/
  | sleep (timer draw : Nat)
  /-- The wait with the bus held, of at least so many microseconds (R75). -/
  | busyWait (micros : Nat)
  deriving DecidableEq, Repr

/-- How a command completes (R58, R86, R103). -/
inductive Completion where
  | ok
  /-- With the payload of `AttachError`. -/
  | attachError (code : Ret)
  | refused
  deriving DecidableEq, Repr

/-- One output of the engine, as the traces of R66 write them. The diagnostic channel is not the sink (R124). -/
inductive Event where
  | transport (call : TransportCall)
  | delay (d : Delay)
  | sink (m : SinkMessage)
  | diag (code : Ret)
  | done (c : Completion)
  deriving DecidableEq, Repr

/-- What the host does at one step (R52, R106, R132). Log entry 2. -/
inductive HostEvent where
  /-- No strobe: the host presents nothing. -/
  | quiet
  /-- The strobe with a 2-bit code. -/
  | command (code : BitVec 2)
  /-- The handle is created anew. -/
  | reset
  deriving DecidableEq, Repr

/-- The transient registers, which can be void (R19). -/
inductive TransientReg where
  | rb
  | ds
  | err
  deriving DecidableEq, Repr

/-- The state of one engine. `ls` to `st` are the registers of R9; `none` is the value `void` of R19. `host`, `sends`
and `recvs` are the inputs still to come, `timer` is the number of the engine's own delay generator (R23, R123), `draws`
counts the settle delays it has drawn, and `trace` lists the outputs so far, oldest first (log entries 2, 3, 5, 6). -/
structure State where
  ls : Lifecycle
  seq : SeqStep
  rb : Option RawResponse
  ds : Option DecodedState
  err : Option Ret
  st : Status
  host : List HostEvent
  sends : List Ret
  recvs : List RecvAnswer
  timer : Nat
  draws : Nat
  trace : List Event
  deriving DecidableEq, Repr

/-- Why a step has no outcome. -/
inductive Fault where
  /-- `OverlapFault` (R99, R132): a command or a reset is presented while `BUSY = 1`. Raised by the three commands, the
  reserved command code and reset. Safe: the machine stops where the spec gives no outcome. -/
  | overlap
  /-- A void register is read (R19). Raised by P_DECODE, the P_KEY_ and P_ABS_ steps and P_DIAG, and by the operations
  made of them. Safe: the machine stops where the spec says that nothing may read the register. -/
  | voidRead (r : TransientReg)
  deriving DecidableEq, Repr

/-- Why an instruction has no meaning. -/
inductive Refusal where
  /-- Raised by an arm of `exec` whose instruction has no meaning yet. Safe: the machine stops. No arm raises it now. -/
  | notModelled (mnemonic : String)
  deriving DecidableEq, Repr

/-- The state after reset (R22, R132); the inputs and the outputs are empty (log entry 19). -/
def State.reset : State where
  ls := .uninitialized
  seq := .idle
  rb := none
  ds := none
  err := none
  st := .none
  host := []
  sends := []
  recvs := []
  timer := 0
  draws := 0
  trace := []

end Sys2Proof.Machine
end

