-- ==== Sys2Proof/Machine/Flags.lean ====
section
/-! DEFINITION. The derived flags BUSY and bus_hold, the register codes, the transfer-count validation and command
acceptance (spec/10_state.md R9, R15; spec/20_memory.md R35; spec/30_encoding.md R58, R60, R61;
spec/43_polling_and_lifecycle.md R86, R97). -/

namespace Sys2Proof.Machine

/-- `BUSY = (SEQ != IDLE)` (R15). -/
def State.busy (s : State) : Bool := s.seq != .idle

/-- `bus_hold = (SEQ is one of H_SEND1, H_BUSY, H_SEND2)` (R9, R75). -/
def State.busHold (s : State) : Bool := s.seq == .hSend1 || s.seq == .hBusy || s.seq == .hSend2

/-- `LS[1:0]` (R61). -/
def Lifecycle.code : Lifecycle → BitVec 2
  | .uninitialized => 0b00#2
  | .polling => 0b01#2
  | .stopped => 0b10#2
  | .failed => 0b11#2

/-- `ST[1:0]` (R58). -/
def Status.code : Status → BitVec 2
  | .none => 0b00#2
  | .ok => 0b01#2
  | .attachError => 0b10#2
  | .refused => 0b11#2

/-- `SEQ[3:0]` (R60). -/
def SeqStep.code : SeqStep → BitVec 4
  | .idle => 0b0000#4
  | .hSend1 => 0b0001#4
  | .hBusy => 0b0010#4
  | .hSend2 => 0b0011#4
  | .rWait1 => 0b0100#4
  | .rTrig => 0b0101#4
  | .rWait2 => 0b0110#4
  | .rRecv => 0b0111#4
  | .pDecode => 0b1000#4
  | .pKeyC => 0b1001#4
  | .pKeyZ => 0b1010#4
  | .pAbsX => 0b1011#4
  | .pAbsY => 0b1100#4
  | .pSync => 0b1101#4
  | .pDiag => 0b1110#4

/-- The status a completion leaves in `ST` (R58). -/
def Completion.status : Completion → Status
  | .ok => .ok
  | .attachError _ => .attachError
  | .refused => .refused

/-- The result of the transfer-count validation (R35). -/
inductive Verdict where
  | ok
  | err (code : Ret)
  deriving DecidableEq, Repr

/-- `classify(ret, n)`, on signed integers; the sign test comes before the mismatch (R35, R108). -/
def classify (ret : Ret) (n : Nat) : Verdict :=
  if ret.toInt = n then .ok
  else if ret.toInt < 0 then .err ret
  else .err Config.eIO

/-- The commands the lifecycle states accept (R86, R97, R117): `attach` in Uninitialized, `tick` and `detach` in
Polling. -/
def acceptsAttach (l : Lifecycle) : Bool := l == .uninitialized

/-- See `acceptsAttach`. -/
def acceptsTick (l : Lifecycle) : Bool := l == .polling

/-- See `acceptsAttach`. -/
def acceptsDetach (l : Lifecycle) : Bool := l == .polling

end Sys2Proof.Machine
end

