-- ==== Sys2Proof/Machine/Operands.lean ====
section
/-! DEFINITION. Operand assembly from a response (spec/30_encoding.md R56; spec/42_decoder.md R79 to R84) and the reads
of the transient registers, which fault on void (spec/10_state.md R19). -/

namespace Sys2Proof.Machine

/-- What a meaning answers. -/
abbrev Result := Host.Outcome State Fault Refusal

/-- `axis_x = raw[0]`, the whole byte (R80). -/
def axisX (r : RawResponse) : Byte := r.b0

/-- `axis_y = raw[1]`, the whole byte (R81). -/
def axisY (r : RawResponse) : Byte := r.b1

/-- `button_z_pressed = NOT (raw[5] & 0b01)`: pressed when bit 0 is clear (R82). -/
def buttonZ (r : RawResponse) : Bool := r.b5 &&& 0b01#8 == 0#8

/-- `button_c_pressed = NOT (raw[5] & 0b10)`: pressed when bit 1 is clear (R83). -/
def buttonC (r : RawResponse) : Bool := r.b5 &&& 0b10#8 == 0#8

/-- `decode(raw)`: pure and total (R79). Bytes 2 to 4 and byte 5 bits 7 to 2 are not read (R84). -/
def decodeResponse (r : RawResponse) : DecodedState where
  ax := axisX r
  ay := axisY r
  bc := buttonC r
  bz := buttonZ r

/-- A byte zero-extended to an unbounded integer (R8, R56). -/
def zext (b : Byte) : Nat := b.toNat

/-- Go on with `RB`; a void `RB` is a fault (R19). -/
def readRb (s : State) (go : RawResponse → Result) : Result :=
  match s.rb with
  | some r => go r
  | none => .fault (.voidRead .rb)

/-- Go on with `DS`; a void `DS` is a fault (R19). -/
def readDs (s : State) (go : DecodedState → Result) : Result :=
  match s.ds with
  | some d => go d
  | none => .fault (.voidRead .ds)

/-- Go on with `ERR`; a void `ERR` is a fault (R19). -/
def readErr (s : State) (go : Ret → Result) : Result :=
  match s.err with
  | some c => go c
  | none => .fault (.voidRead .err)

end Sys2Proof.Machine
end

