-- ==== Sys2Proof/Machine/Ops.lean ====
section
/-! DEFINITION. The named operations every meaning is made of: the register updates, the primitives of
spec/00_scope.md R8, taking a TransportError and returning from it (spec/60_exceptions.md R102, R110, R111, R113), the
completion of a command, its acceptance, and reset. -/

namespace Sys2Proof.Machine

/-- `SEQ <- q`. -/
def State.goto (q : SeqStep) (s : State) : State := { s with seq := q }

/-- `LS <- l`. -/
def State.setLs (l : Lifecycle) (s : State) : State := { s with ls := l }

/-- `ERR <- c`. -/
def State.setErr (c : Ret) (s : State) : State := { s with err := some c }

/-- `RB[i] <- r[i]`, all six bytes at once (R12). -/
def State.setRb (r : RawResponse) (s : State) : State := { s with rb := some r }

/-- `DS <- d`, all four fields at once (R13). -/
def State.setDs (d : DecodedState) (s : State) : State := { s with ds := some d }

/-- The host events still to come. -/
def State.setHost (h : List HostEvent) (s : State) : State := { s with host := h }

/-- The `send` answers still to come. -/
def State.setSends (l : List Ret) (s : State) : State := { s with sends := l }

/-- The `receive` answers still to come. -/
def State.setRecvs (l : List RecvAnswer) (s : State) : State := { s with recvs := l }

/-- One output. -/
def State.emit (e : Event) (s : State) : State := { s with trace := s.trace ++ [e] }

/-- `Sleep(10 ms, 20 ms)` (R67): a fresh draw of the engine's own generator, recorded; the bus is free meanwhile. Its
duration is `Config.settleDelayMs` of the generator and the draw's number (log entry 6). -/
def State.sleep (s : State) : State :=
  { s with draws := s.draws + 1, trace := s.trace ++ [.delay (.sleep s.timer s.draws)] }

/-- `BusyWait(1000 microseconds)` (R75): recorded; the bus is held meanwhile, since SEQ is H_BUSY (R9). -/
def State.busyWait (s : State) : State := s.emit (.delay (.busyWait Config.initGapUs))

/-- `Done(st)` (R86): the status and the payload of `AttachError` go to the host, `RB`, `DS` and `ERR` become void
(R24), and SEQ returns to IDLE. -/
def State.complete (c : Completion) (s : State) : State :=
  { s with st := c.status, rb := none, ds := none, err := none, seq := .idle, trace := s.trace ++ [.done c] }

/-- `Done(ATTACH_ERROR)`: the payload is the value of ERR (R58, R86). -/
def doneAttachError (s : State) : Result :=
  readErr s fun c => .next (s.complete (.attachError c))

/-- The command a TransportError is raised in. -/
inductive Running where
  | attach
  | tick
  deriving DecidableEq, Repr

/-- TAKING A TRANSPORT ERROR (R102, R105): `ERR <- code` and nothing else is saved; in a tick control goes to P_DIAG
(R110); in ATTACH `LS <- Failed` and the command completes with `AttachError(code)` (R103, R111). -/
def raiseTransportError (where_ : Running) (code : Ret) (s : State) : Result :=
  match where_ with
  | .tick => .next ((s.setErr code).goto .pDiag)
  | .attach => doneAttachError ((s.setErr code).setLs .failed)

/-- RETURN FROM THE ERROR PATH OF A TICK (R95, R113): one diagnostic with the code in ERR, then `Done(OK)`. The error
path of ATTACH has no return (R114). -/
def returnFromError (s : State) : Result :=
  readErr s fun c => .next ((s.emit (.diag c)).complete .ok)

/-- `MemWrite(BUS, n, frame)` (R31): one transaction. The answer is the next one the transport holds; while it holds
none the call has not returned and the step stays where it is (U12, R118; log entry 3). -/
def memWrite (frame : List Byte) (s : State) (go : Ret → State → Result) : Result :=
  match s.sends with
  | [] => .next s
  | ret :: rest => go ret ((s.setSends rest).emit (.transport (.send frame ret)))

/-- `MemRead(BUS, 6)` (R32): as `memWrite`, with the six bytes. -/
def memRead (s : State) (go : RecvAnswer → State → Result) : Result :=
  match s.recvs with
  | [] => .next s
  | a :: rest => go a ((s.setRecvs rest).emit (.transport (.recv Config.nResp a)))

/-- Send a frame, require the count of its bytes, go on or raise (R35, R68, R74, R76). -/
def sendFrame (frame : List Byte) (where_ : Running) (onOk : State → Result) (s : State) : Result :=
  memWrite frame s fun ret t =>
    match classify ret frame.length with
    | .ok => onOk t
    | .err c => raiseTransportError where_ c t

/-- Validate a receive: six bytes into RB, or raise and drop what arrived (R70). -/
def acceptResponse (a : RecvAnswer) (t : State) : Result :=
  match classify a.ret Config.nResp with
  | .ok => .next ((t.setRb a.data).goto .pDecode)
  | .err c => raiseTransportError .tick c t

/-- Report one message to the sink and go on with the next step (R59, R90 to R93). -/
def report (m : SinkMessage) (q : SeqStep) (s : State) : Result :=
  .next ((s.emit (.sink m)).goto q)

/-- Presenting a command (R86): an overlap while BUSY (R99), the command's start where the lifecycle accepts it, else
`Done(REFUSED)` (R98). -/
def takeCommand (accepted : Bool) (start : State → Result) (s : State) : Result :=
  if s.busy then .fault .overlap
  else if accepted then start s
  else .next (s.complete .refused)

/-- The reserved command code `11`: refused like a command the lifecycle does not accept (R63, R98, R99). -/
def takeReservedCommand (s : State) : Result :=
  takeCommand false (fun t => .next t) s

/-- The state after the handle is created anew (R132): State.reset, with the inputs still to come kept, since they are
the outside's, and with the engine's own generator and the count of its draws (log entry 12). -/
def State.renewed (s : State) : State :=
  { State.reset with host := s.host, sends := s.sends, recvs := s.recvs, timer := s.timer, draws := s.draws }

/-- Reset (R132). While BUSY it has no outcome. -/
def resetEngine (s : State) : Result :=
  if s.busy then .fault .overlap
  else .next s.renewed

/-- A pseudo-operation (R66): its steps in order, each performed when the sequencer is at it; a failing step, or a call
that has not returned, leaves the sequencer elsewhere and so cuts the list short. -/
def runExpansion : List (SeqStep × (State → Result)) → State → Result
  | [], s => .next s
  | (q, perform) :: rest, s =>
    if s.seq = q then
      match perform s with
      | .next t => runExpansion rest t
      | .fault r => .fault r
      | .refused r => .refused r
    else runExpansion rest s

end Sys2Proof.Machine
end

