-- ==== Sys2Proof/Machine/Command.lean ====
section
/-! DEFINITION. The three host commands (spec/43_polling_and_lifecycle.md R86, R87, R88, R96, R98, R99). -/

namespace Sys2Proof.Machine

/-- ATTACH (R86, R87): accepted in Uninitialized, it starts INIT; the handshake steps complete it. -/
def execAttach (s : State) : Result :=
  takeCommand (acceptsAttach s.ls) (fun t => .next (t.goto .hSend1)) s

/-- TICK (R86, R88): accepted in Polling, it starts READ_STATE; the read and poll steps complete it. -/
def execTick (s : State) : Result :=
  takeCommand (acceptsTick s.ls) (fun t => .next (t.goto .rWait1)) s

/-- DETACH (R86, R96): accepted in Polling, `LS <- Stopped; Done(OK)` and nothing outside the engine. -/
def execDetach (s : State) : Result :=
  takeCommand (acceptsDetach s.ls) (fun t => .next ((t.setLs .stopped).complete .ok)) s

end Sys2Proof.Machine
end

