-- ==== Sys2Proof/Machine/Handshake.lean ====
section
/-! DEFINITION. The Initialization Handshake (spec/41_init_handshake.md): its three steps, its two frames (log entry 13)
and the operation INIT (log entry 14). -/

namespace Sys2Proof.Machine

/-- H_SEND1 (R74): send INIT1, expect 2, go on to H_BUSY. -/
def execHSend1 (s : State) : Result :=
  sendFrame Config.init1Frame .attach (fun t => .next (t.goto .hBusy)) s

/-- H_BUSY (R75): the gap, with the bus held; cannot fail. -/
def execHBusy (s : State) : Result :=
  .next (s.busyWait.goto .hSend2)

/-- H_SEND2 (R76): send INIT2, expect 2; `LS <- Polling; Done(OK)`. -/
def execHSend2 (s : State) : Result :=
  sendFrame Config.init2Frame .attach (fun t => .next ((t.setLs .polling).complete .ok)) s

/-- The frame INIT1 (R54) crosses the transport: the transaction of R74, with its validation. -/
def execInit1 (s : State) : Result :=
  sendFrame Config.init1Frame .attach (fun t => .next (t.goto .hBusy)) s

/-- The frame INIT2 (R54) crosses the transport: the transaction of R76, with its validation. -/
def execInit2 (s : State) : Result :=
  sendFrame Config.init2Frame .attach (fun t => .next ((t.setLs .polling).complete .ok)) s

/-- The steps of INIT, in order (R73). -/
def initSteps : List (SeqStep × (State → Result)) :=
  [(.hSend1, execHSend1), (.hBusy, execHBusy), (.hSend2, execHSend2)]

/-- INIT, `initialize(transport)` (R73): entered at H_SEND1. -/
def execInit (s : State) : Result :=
  runExpansion initSteps (s.goto .hSend1)

end Sys2Proof.Machine
end

