-- ==== Sys2Proof/Machine/ReadCycle.lean ====
section
/-! DEFINITION. The Register Protocol (spec/40_register_protocol.md): its four steps, its two frames (log entry 13) and
the operation READ_STATE (log entry 14). -/

namespace Sys2Proof.Machine

/-- R_WAIT1 (R67): the settle delay before the trigger; cannot fail. -/
def execRWait1 (s : State) : Result :=
  .next (s.sleep.goto .rTrig)

/-- R_TRIG (R68): send TRIG, expect 1, go on to R_WAIT2. -/
def execRTrig (s : State) : Result :=
  sendFrame Config.trigFrame .tick (fun t => .next (t.goto .rWait2)) s

/-- R_WAIT2 (R69): the settle delay before the receive; cannot fail. -/
def execRWait2 (s : State) : Result :=
  .next (s.sleep.goto .rRecv)

/-- R_RECV (R70): receive, expect 6, write RB. -/
def execRRecv (s : State) : Result :=
  memRead s acceptResponse

/-- The frame TRIG (R53) crosses the transport: the transaction of R68, with its validation. -/
def execTrig (s : State) : Result :=
  sendFrame Config.trigFrame .tick (fun t => .next (t.goto .rWait2)) s

/-- The six bytes whose fields RESP names (R55): byte 5 is `rrrrrrcz`. -/
def respBytes (x y a2 a3 a4 : Byte) (rsv : BitVec 6) (cn zn : BitVec 1) : RawResponse :=
  ⟨x, y, a2, a3, a4, rsv ++ cn ++ zn⟩

/-- The frame RESP (R55): "the six bytes of a successful receive". The receive of R70 whose answer is 6 with these
bytes: the frame stands in the place of the transport's next answer. -/
def execResp (x y a2 a3 a4 : Byte) (rsv : BitVec 6) (cn zn : BitVec 1) (s : State) : Result :=
  let a : RecvAnswer := ⟨6#32, respBytes x y a2 a3 a4 rsv cn zn, []⟩
  acceptResponse a ((s.setRecvs s.recvs.tail).emit (.transport (.recv Config.nResp a)))

/-- The steps of READ_STATE, in order (R71). -/
def readStateSteps : List (SeqStep × (State → Result)) :=
  [(.rWait1, execRWait1), (.rTrig, execRTrig), (.rWait2, execRWait2), (.rRecv, execRRecv)]

/-- READ_STATE, `read_state(transport)` (R71): entered at R_WAIT1; it ends at P_DECODE with RB written, or at P_DIAG
with ERR written. -/
def execReadState (s : State) : Result :=
  runExpansion readStateSteps (s.goto .rWait1)

end Sys2Proof.Machine
end

