-- ==== Sys2Proof/Machine/Poll.lean ====
section
/-! DEFINITION. The poll family (spec/43_polling_and_lifecycle.md R88 to R95): the seven P_ steps and the operations
DECODE (spec/42_decoder.md R79) and POLL (log entry 14). -/

namespace Sys2Proof.Machine

/-- P_DECODE (R89): `DS <- decode(RB)`. -/
def execPDecode (s : State) : Result :=
  readRb s fun r => .next ((s.setDs (decodeResponse r)).goto .pKeyC)

/-- P_KEY_C (R90). -/
def execPKeyC (s : State) : Result :=
  readDs s fun d => report (.reportKey .keyC d.bc) .pKeyZ s

/-- P_KEY_Z (R91). -/
def execPKeyZ (s : State) : Result :=
  readDs s fun d => report (.reportKey .keyZ d.bz) .pAbsX s

/-- P_ABS_X (R92): the raw byte, not clamped. -/
def execPAbsX (s : State) : Result :=
  readDs s fun d => report (.reportAbs .absX (zext d.ax)) .pAbsY s

/-- P_ABS_Y (R93): the raw byte, not clamped. -/
def execPAbsY (s : State) : Result :=
  readDs s fun d => report (.reportAbs .absY (zext d.ay)) .pSync s

/-- P_SYNC (R94): `sync(); Done(OK)`. -/
def execPSync (s : State) : Result :=
  .next ((s.emit (.sink .sync)).complete .ok)

/-- P_DIAG (R95): `Diag(ERR); Done(OK)`, the return from the error path of a tick (R113). -/
def execPDiag (s : State) : Result :=
  returnFromError s

/-- DECODE, `decode(raw)` (R79): its one step is P_DECODE (R66). -/
def execDecode (s : State) : Result :=
  runExpansion [(.pDecode, execPDecode)] (s.goto .pDecode)

/-- The steps of REPORT, in order (R66, R88). -/
def reportSteps : List (SeqStep × (State → Result)) :=
  [(.pKeyC, execPKeyC), (.pKeyZ, execPKeyZ), (.pAbsX, execPAbsX), (.pAbsY, execPAbsY), (.pSync, execPSync)]

/-- The steps of POLL (R66, R88): READ_STATE; on success DECODE and REPORT; on failure P_DIAG, to which a failing step
has moved the sequencer. -/
def pollSteps : List (SeqStep × (State → Result)) :=
  readStateSteps ++ [(.pDecode, execPDecode)] ++ reportSteps ++ [(.pDiag, execPDiag)]

/-- POLL, `on_poll_tick(device_handle)` (R88): entered at R_WAIT1. -/
def execPoll (s : State) : Result :=
  runExpansion pollSteps (s.goto .rWait1)

end Sys2Proof.Machine
end

