-- ==== Sys2Proof/Machine/Dispatch.lean ====
section
/-! DEFINITION. The dispatch: one arm per row of spec/opcode_table.json. -/

namespace Sys2Proof.Machine

def exec (i : Instr) (s : State) : Host.Outcome State Fault Refusal :=
  match i with
  -- commands
  | .attach => Sys2Proof.Machine.execAttach s
  | .tick => Sys2Proof.Machine.execTick s
  | .detach => Sys2Proof.Machine.execDetach s
  -- the Initialization Handshake
  | .hSend1 => Sys2Proof.Machine.execHSend1 s
  | .hBusy => Sys2Proof.Machine.execHBusy s
  | .hSend2 => Sys2Proof.Machine.execHSend2 s
  -- the Register Protocol
  | .rWait1 => Sys2Proof.Machine.execRWait1 s
  | .rTrig => Sys2Proof.Machine.execRTrig s
  | .rWait2 => Sys2Proof.Machine.execRWait2 s
  | .rRecv => Sys2Proof.Machine.execRRecv s
  -- the poll family
  | .pDecode => Sys2Proof.Machine.execPDecode s
  | .pKeyC => Sys2Proof.Machine.execPKeyC s
  | .pKeyZ => Sys2Proof.Machine.execPKeyZ s
  | .pAbsX => Sys2Proof.Machine.execPAbsX s
  | .pAbsY => Sys2Proof.Machine.execPAbsY s
  | .pSync => Sys2Proof.Machine.execPSync s
  | .pDiag => Sys2Proof.Machine.execPDiag s
  -- frames
  | .trig => Sys2Proof.Machine.execTrig s
  | .init1 => Sys2Proof.Machine.execInit1 s
  | .init2 => Sys2Proof.Machine.execInit2 s
  | .resp x y a2 a3 a4 rsv cn zn => Sys2Proof.Machine.execResp x y a2 a3 a4 rsv cn zn s
  -- named operations
  | .init => Sys2Proof.Machine.execInit s
  | .readState => Sys2Proof.Machine.execReadState s
  | .decode => Sys2Proof.Machine.execDecode s
  | .poll => Sys2Proof.Machine.execPoll s

end Sys2Proof.Machine
end

