-- ==== Sys2Proof/WellFormed.lean ====
section
/-! DEFINITION. Which encoded words are well formed (spec/30_encoding.md R52 to R55, R60, R62, R63) and which
instructions are (all of them: an operand exists only in RESP, and every one of its 2^48 values is well formed, R55). -/

namespace Sys2Proof

/-- A word the tables of R52 to R55, R60 and R66 list. -/
def Encoded.wellFormed : Encoded → Bool
  -- `11` is reserved (R63)
  | .cmd c => c != 0b11#2
  -- the only one-byte frame is TRIG (R53)
  | .w1 b => b == 0x00#8
  -- the only two-byte frames are INIT1 and INIT2 (R54)
  | .w2 b0 b1 => (b0 == 0xF0#8 && b1 == 0x55#8) || (b0 == 0xFB#8 && b1 == 0x00#8)
  -- there is no illegal response (R55, R62)
  | .r6 _ => true
  -- `0000` is IDLE, which is no micro-operation (R60); `1111` is reserved (R63)
  | .uop s => s != 0b0000#4 && s != 0b1111#4
  | .op _ => true

/-- Every instruction is well formed: the types of RESP's fields are exactly the widths of R55, no value of them is
illegal (R62), and no other instruction has an operand. -/
def Instr.wellFormed : Instr → Bool
  | .attach | .tick | .detach => true
  | .hSend1 | .hBusy | .hSend2 => true
  | .rWait1 | .rTrig | .rWait2 | .rRecv => true
  | .pDecode | .pKeyC | .pKeyZ | .pAbsX | .pAbsY | .pSync | .pDiag => true
  | .trig | .init1 | .init2 => true
  | .resp _ _ _ _ _ _ _ _ => true
  | .init | .readState | .decode | .poll => true

end Sys2Proof
end

