-- ==== Sys2Proof/Decode.lean ====
section
/-! DEFINITION. The decoder, total on any word and on any bytes, rejecting by name; then the encoder, written from the
same tables (spec/30_encoding.md R51 to R55, R60, R63, R66). -/

namespace Sys2Proof

/-- Why a word has no instruction. -/
inductive DecodeError where
  /-- Command code `11` (R63); the engine answers it with REFUSED (R98). -/
  | reservedCommand
  /-- Step code `0000` is IDLE: no micro-operation, the engine waits (R60, R86). -/
  | idleIsNoStep
  /-- Step code `1111` (R63). -/
  | reservedStep
  /-- A one-byte frame other than TRIG; the engine issues none (R37). -/
  | unknownFrame1
  /-- A two-byte frame other than INIT1 and INIT2; the engine issues none (R37). -/
  | unknownFrame2
  /-- Bytes that are not as many as the format fixes (R65). -/
  | wrongLength
  /-- A 2-bit or 4-bit code in a byte whose other bits are not 0 (log entry 22). -/
  | paddingSet
  /-- The format OP has no binary form (R51). -/
  | noBinaryForm
  deriving DecidableEq, Repr

/-- The command codes (R52). -/
def decodeCommand (c : BitVec 2) : Except DecodeError Instr :=
  match c.toNat with
  | 0 => .ok .attach
  | 1 => .ok .tick
  | 2 => .ok .detach
  | _ => .error .reservedCommand

/-- The step codes (R60). -/
def decodeStep (c : BitVec 4) : Except DecodeError Instr :=
  match c.toNat with
  | 0 => .error .idleIsNoStep
  | 1 => .ok .hSend1
  | 2 => .ok .hBusy
  | 3 => .ok .hSend2
  | 4 => .ok .rWait1
  | 5 => .ok .rTrig
  | 6 => .ok .rWait2
  | 7 => .ok .rRecv
  | 8 => .ok .pDecode
  | 9 => .ok .pKeyC
  | 10 => .ok .pKeyZ
  | 11 => .ok .pAbsX
  | 12 => .ok .pAbsY
  | 13 => .ok .pSync
  | 14 => .ok .pDiag
  | _ => .error .reservedStep

/-- The response's fields (R55): byte 5 is `rrrrrrcz`. -/
def decodeResp (r : RawResponse) : Instr :=
  .resp r.b0 r.b1 r.b2 r.b3 r.b4 (r.b5.extractLsb' 2 6) (r.b5.extractLsb' 1 1) (r.b5.extractLsb' 0 1)

/-- The named operations (R66). -/
def decodeOp : OpName → Instr
  | .init => .init
  | .readState => .readState
  | .decode => .decode
  | .poll => .poll

/-- The decoder, on a word of any format. -/
def decode : Encoded → Except DecodeError Instr
  | .cmd c => decodeCommand c
  | .w1 b => if b = 0x00#8 then .ok .trig else .error .unknownFrame1
  | .w2 b0 b1 =>
    if b0 = 0xF0#8 ∧ b1 = 0x55#8 then .ok .init1
    else if b0 = 0xFB#8 ∧ b1 = 0x00#8 then .ok .init2
    else .error .unknownFrame2
  | .r6 r => .ok (decodeResp r)
  | .uop c => decodeStep c
  | .op n => .ok (decodeOp n)

/-- The word of a format laid out in bytes, index 0 first (R51); a 2-bit or 4-bit code is the low bits of one byte
(log entry 22). -/
def Encoded.ofBytes : Format → List Byte → Except DecodeError Encoded
  | .cmd, [b] => if b.toNat < 4 then .ok (.cmd (b.setWidth 2)) else .error .paddingSet
  | .uop, [b] => if b.toNat < 16 then .ok (.uop (b.setWidth 4)) else .error .paddingSet
  | .w1, [b0] => .ok (.w1 b0)
  | .w2, [b0, b1] => .ok (.w2 b0 b1)
  | .r6, [b0, b1, b2, b3, b4, b5] => .ok (.r6 ⟨b0, b1, b2, b3, b4, b5⟩)
  | .op, _ => .error .noBinaryForm
  | _, _ => .error .wrongLength

/-- The decoder on bytes: total, whatever they are. -/
def decodeBytes (f : Format) (bs : List Byte) : Except DecodeError Instr :=
  match Encoded.ofBytes f bs with
  | .ok e => decode e
  | .error r => .error r

/-- The words of an instruction (R52 to R55, R60, R66). -/
def encode : Instr → Encoded
  | .attach => .cmd 0b00#2
  | .tick => .cmd 0b01#2
  | .detach => .cmd 0b10#2
  | .hSend1 => .uop 0b0001#4
  | .hBusy => .uop 0b0010#4
  | .hSend2 => .uop 0b0011#4
  | .rWait1 => .uop 0b0100#4
  | .rTrig => .uop 0b0101#4
  | .rWait2 => .uop 0b0110#4
  | .rRecv => .uop 0b0111#4
  | .pDecode => .uop 0b1000#4
  | .pKeyC => .uop 0b1001#4
  | .pKeyZ => .uop 0b1010#4
  | .pAbsX => .uop 0b1011#4
  | .pAbsY => .uop 0b1100#4
  | .pSync => .uop 0b1101#4
  | .pDiag => .uop 0b1110#4
  | .trig => .w1 0x00#8
  | .init1 => .w2 0xF0#8 0x55#8
  | .init2 => .w2 0xFB#8 0x00#8
  | .resp x y a2 a3 a4 rsv cn zn => .r6 ⟨x, y, a2, a3, a4, rsv ++ cn ++ zn⟩
  | .init => .op .init
  | .readState => .op .readState
  | .decode => .op .decode
  | .poll => .op .poll

/-- The bytes of a word, index 0 first; none for an operation, which has no binary form (log entry 22). -/
def Encoded.bytes : Encoded → List Byte
  | .cmd c => [c.setWidth 8]
  | .uop c => [c.setWidth 8]
  | .w1 b0 => [b0]
  | .w2 b0 b1 => [b0, b1]
  | .r6 r => r.bytes
  | .op _ => []

/-- A word read as one number as spec/opcode_table.json reads it: the rightmost bit of the pattern is bit 0, so byte 0
holds the highest bits (R51). -/
def Encoded.number : Encoded → Nat
  | .cmd c => c.toNat
  | .uop c => c.toNat
  | .w1 b0 => b0.toNat
  | .w2 b0 b1 => (b0 ++ b1).toNat
  | .r6 r => (r.b0 ++ r.b1 ++ r.b2 ++ r.b3 ++ r.b4 ++ r.b5).toNat
  | .op _ => 0

/-- Byte `k` of a table number, counted from its low end. -/
def tableByte (w k : Nat) : Byte := BitVec.ofNat 8 (w / 256 ^ k)

/-- The readings of a table word of `nbits` bits, in the order they are tried (log entry 16): a word of exactly a
format's width is read in that format; one byte holds W1, or else a command or step code padded to a byte. -/
def tableReadings (nbits w : Nat) : List (Format × List Byte) :=
  match nbits with
  | 2 => [(.cmd, [tableByte w 0])]
  | 4 => [(.uop, [tableByte w 0])]
  | 8 => [(.w1, [tableByte w 0]), (.cmd, [tableByte w 0]), (.uop, [tableByte w 0])]
  | 16 => [(.w2, [tableByte w 1, tableByte w 0])]
  | 48 => [(.r6, [tableByte w 5, tableByte w 4, tableByte w 3, tableByte w 2, tableByte w 1, tableByte w 0])]
  | _ => []

/-- The first reading the decoder accepts. -/
def firstDecoded : List (Format × List Byte) → Option Instr
  | [] => none
  | (f, bs) :: rest =>
    match decodeBytes f bs with
    | .ok i => some i
    | .error _ => firstDecoded rest

/-- What the decoder reads from a word numbered as spec/opcode_table.json numbers it (log entry 16). -/
def decodeTableWord (nbits w : Nat) : Option Instr :=
  if w < 2 ^ nbits then firstDecoded (tableReadings nbits w) else none

end Sys2Proof
end

