-- ==== Sys2Proof/Machine/Fetch.lean ====
section
/-! DEFINITION. Where the next instruction comes from (spec/20_memory.md R49: no program store): the command port while
SEQ is IDLE, the code in SEQ otherwise; and how a given word is put there. -/

namespace Sys2Proof.Machine

/-- The word at the sequencer: the code in SEQ (R11, R60). -/
def State.stepWord (s : State) : Encoded := .uop s.seq.code

/-- The instruction the sequencer is at; none while SEQ is IDLE, whose code is no micro-operation (R60). -/
def State.atStep (s : State) : Option Instr :=
  match decode s.stepWord with
  | .ok i => some i
  | .error _ => none

/-- The instruction a presented command code names; none for the reserved code (R52, R63). -/
def presentedCommand (code : BitVec 2) : Option Instr :=
  match decode (.cmd code) with
  | .ok i => some i
  | .error _ => none

/-- The host presents a code at the next step, at SEQ = IDLE. -/
def State.present (code : BitVec 2) (s : State) : State :=
  { s with seq := .idle, host := .command code :: s.host }

/-- The sequencer is at a step and the host presents nothing at the next step. -/
def State.place (q : SeqStep) (s : State) : State :=
  { s with seq := q, host := if s.host.isEmpty then [] else .quiet :: s.host }

/-- A send answer of `n`, if the transport holds none. -/
def State.withSendAnswer (n : Ret) (s : State) : State :=
  { s with sends := if s.sends.isEmpty then [n] else s.sends }

/-- A receive answer of six zero bytes, if the transport holds none. -/
def State.withRecvAnswer (s : State) : State :=
  { s with recvs := if s.recvs.isEmpty then [⟨6#32, ⟨0, 0, 0, 0, 0, 0⟩, []⟩] else s.recvs }

/-- A response in RB, if it is void. -/
def State.withRb (s : State) : State := { s with rb := s.rb <|> some ⟨0, 0, 0, 0, 0, 0⟩ }

/-- A decoded state in DS, if it is void. -/
def State.withDs (s : State) : State := { s with ds := s.ds <|> some ⟨0, 0, true, true⟩ }

/-- A code in ERR, if it is void. -/
def State.withErr (s : State) : State := { s with err := s.err <|> some (-1) }

/-- Bring the engine to where its next step runs `i`: a command on the port; a step in SEQ, with the register it reads
or the answer its call gets where there is none yet; a frame as the call that carries it. The operations have no word
and are not fetched (R66). Log entry 16. -/
def State.readyFor (i : Instr) (s : State) : State :=
  match i with
  | .attach => s.present 0b00#2
  | .tick => s.present 0b01#2
  | .detach => s.present 0b10#2
  | .hSend1 => (s.place .hSend1).withSendAnswer 2
  | .hBusy => s.place .hBusy
  | .hSend2 => (s.place .hSend2).withSendAnswer 2
  | .rWait1 => s.place .rWait1
  | .rTrig => (s.place .rTrig).withSendAnswer 1
  | .rWait2 => s.place .rWait2
  | .rRecv => (s.place .rRecv).withRecvAnswer
  | .pDecode => (s.place .pDecode).withRb
  | .pKeyC => (s.place .pKeyC).withDs
  | .pKeyZ => (s.place .pKeyZ).withDs
  | .pAbsX => (s.place .pAbsX).withDs
  | .pAbsY => (s.place .pAbsY).withDs
  | .pSync => s.place .pSync
  | .pDiag => (s.place .pDiag).withErr
  | .trig => (s.place .rTrig).withSendAnswer 1
  | .init1 => (s.place .hSend1).withSendAnswer 2
  | .init2 => (s.place .hSend2).withSendAnswer 2
  | .resp x y a2 a3 a4 rsv cn zn =>
    let t := s.place .rRecv
    { t with recvs := ⟨6#32, ⟨x, y, a2, a3, a4, rsv ++ cn ++ zn⟩, []⟩ :: t.recvs }
  | .init | .readState | .decode | .poll => s

end Sys2Proof.Machine
end

