-- ==== Sys2Proof/Machine/Step.lean ====
section
/-! DEFINITION. One step of the engine: the host's event at this step, then the command it presents or the step the
sequencer is at (spec/10_state.md R11; spec/43_polling_and_lifecycle.md R86, R99). -/

namespace Sys2Proof.Machine

/-- No command is presented: the sequencer's step, or waiting at IDLE for ever (R86, R142). -/
def sequencerStep (s : State) : Host.Outcome State Fault Refusal :=
  match s.atStep with
  | some i => exec i s
  | none => .next s

/-- A command code is presented (R86): the command, or the reserved code (R63). -/
def commandStep (code : BitVec 2) (s : State) : Host.Outcome State Fault Refusal :=
  match presentedCommand code with
  | some i => exec i s
  | none => takeReservedCommand s

/-- One step. The host's event is consumed; a host with no event left presents nothing (log entry 2). -/
def step (s : State) : Host.Outcome State Fault Refusal :=
  match s.host with
  | [] => sequencerStep s
  | .quiet :: rest => sequencerStep (s.setHost rest)
  | .command code :: rest => commandStep code (s.setHost rest)
  | .reset :: rest => resetEngine (s.setHost rest)

/-- `s` with the instruction of a table word put where the next step takes it from (log entry 16). -/
def State.withFetchWord (s : State) (nbits w : Nat) : State :=
  match decodeTableWord nbits w with
  | some i => s.readyFor i
  | none => s

end Sys2Proof.Machine
end

