-- ==== Sys2Proof/Machine/System.lean ====
section
/-! DEFINITION. Several engines (spec/10_state.md R23; spec/60_exceptions.md R122; spec/70_reset_and_hazards.md R135,
R137): each is a state of its own with its own delay generator; engines on one physical bus meet only at an arbiter that
honours the exclusivity of the handshake. Log entry 17. -/

namespace Sys2Proof.Machine

/-- Why an engine of a system takes no further step. -/
inductive Stop where
  | fault (r : Fault)
  | refused (q : Refusal)
  deriving DecidableEq, Repr

/-- One engine, the number of the physical bus its transport runs over (R23), whether its transport has a call issued and
not returned (R20 (d)), and why the engine has stopped, if it has. -/
structure Device where
  engine : State
  bus : Nat
  calling : Bool
  stop : Option Stop
  deriving DecidableEq, Repr

/-- The engines, which of them takes each coming turn (plain data, any interleaving), and how many turns have been
taken. -/
structure System where
  devices : List Device
  schedule : List Nat
  turns : Nat
  deriving DecidableEq, Repr

/-- The first handshake write has returned and the second has not: a part of the section no other agent of the bus may
enter (R46, R75, R135). -/
def State.inBusSection (s : State) : Bool := s.seq == .hBusy || s.seq == .hSend2

/-- The engine's next sequencer step calls the transport (R101). -/
def State.aboutToCall (s : State) : Bool :=
  s.seq == .hSend1 || s.seq == .hSend2 || s.seq == .rTrig || s.seq == .rRecv

/-- The engine's next sequencer step calls the transport, and the transport holds no answer: once issued, the call does
not return (U12). -/
def State.callUnanswered (s : State) : Bool :=
  ((s.seq == .hSend1 || s.seq == .hSend2 || s.seq == .rTrig) && s.sends.isEmpty) || (s.seq == .rRecv && s.recvs.isEmpty)

/-- The device has the bus to itself: it has a call issued and not returned (R38, R122), or stands between its two
handshake writes. So the section of the handshake runs from the issue of H_SEND1's call to the return of H_SEND2's
(R46, R75). -/
def Device.occupiesBus (d : Device) : Bool := d.calling || d.engine.inBusSection

/-- Device `j` keeps the call that device `i` would issue off their bus: while it occupies the bus, and already at H_SEND1,
where R9 asserts `bus_hold`, against every call that is no handshake write. A call already issued is not kept off. Whether
a stopped device keeps others off is a free value (R99: nothing is promised about the bus; log entry 17). -/
def System.keepsOff (y : System) (i j : Nat) : Bool :=
  match y.devices[i]?, y.devices[j]? with
  | some d, some e =>
    !d.calling && j != i && e.bus == d.bus &&
      match e.stop with
      | some _ => Config.strayHold j y.turns
      | none => e.occupiesBus || (e.engine.busHold && !d.engine.busHold)
  | _, _ => false

/-- Another device keeps device `i` off the bus. -/
def System.heldOff (y : System) (i : Nat) : Bool := (List.range y.devices.length).any (y.keepsOff i)

/-- A turn of an engine whose call the arbiter holds off: like a call that has not returned, it stays where it is. DESIGN
CHOICE, log entry 17: the turn reads one host event as every step does, so a command or a reset, presented while BUSY =
1, has its step's outcome in this very turn (R99, R132), and a quiet event is consumed. -/
def waitForBus (s : State) : Host.Outcome State Fault Refusal :=
  match s.host with
  | [] => .next s
  | .quiet :: rest => .next (s.setHost rest)
  | .command _ :: _ | .reset :: _ => step s

/-- What an engine does with its turn. -/
def State.turn (held : Bool) (s : State) : Host.Outcome State Fault Refusal :=
  if s.aboutToCall && held then waitForBus s else step s

/-- One turn of a device: its engine goes on, or is stopped. A call the engine makes, unless kept off, is issued in this
turn, and returns in it if the transport holds its answer (log entry 17); else it is outstanding. DESIGN CHOICE, log
entry 17: a stopped engine keeps its state and takes no further step, where R99 gives its run no outcome and promises
nothing. -/
def Device.turn (held : Bool) (d : Device) : Device :=
  match d.stop with
  | some _ => d
  | none =>
    match d.engine.turn held with
    | .next t => { d with engine := t, calling := d.engine.callUnanswered && (d.calling || !held) }
    | .fault r => { d with stop := some (.fault r) }
    | .refused q => { d with stop := some (.refused q) }

/-- One turn of the scheduled device; all others stay as they are, whatever it does (R23). A number that is no device
passes its turn. -/
def System.step (y : System) : System :=
  match y.schedule with
  | [] => y
  | i :: rest =>
    match y.devices[i]? with
    | none => { devices := y.devices, schedule := rest, turns := y.turns + 1 }
    | some d => { devices := y.devices.set i (d.turn (y.heldOff i)), schedule := rest, turns := y.turns + 1 }

end Sys2Proof.Machine
end

