-- ==== Sys2Proof/Safety.lean ====
section
/-! DEFINITION. What counts as a safe run, in the words claims use: the channels of the trace, the states the rules
admit, the orders the bus, the sink and the delays must keep, the host's duties, and the end of a run. -/

namespace Sys2Proof.Machine

/-- The transport call an event is, if it is one. -/
def Event.call? : Event → Option TransportCall
  | .transport c => some c
  | _ => none

/-- The sink message an event is, if it is one. -/
def Event.sink? : Event → Option SinkMessage
  | .sink m => some m
  | _ => none

/-- The diagnostic an event is, if it is one. -/
def Event.diag? : Event → Option Ret
  | .diag c => some c
  | _ => none

/-- The ordered list of transport calls made, with their answers (R142). -/
def State.calls (s : State) : List TransportCall := s.trace.filterMap Event.call?

/-- The ordered list of sink messages (R142). -/
def State.sinkMessages (s : State) : List SinkMessage := s.trace.filterMap Event.sink?

/-- The ordered list of diagnostics (R142). -/
def State.diagnostics (s : State) : List Ret := s.trace.filterMap Event.diag?

/-- The milliseconds slept in a list of events (R139). -/
def sleptMs : List Event → ℚ
  | [] => 0
  | .delay (.sleep k n) :: rest => Config.settleDelayMs k n + sleptMs rest
  | _ :: rest => sleptMs rest

/-- The settle draw an event is, if it is one: the generator and the number. -/
def Event.draw? : Event → Option (Nat × Nat)
  | .delay (.sleep k n) => some (k, n)
  | _ => none

/-- The settle draws of the trace, oldest first. -/
def State.drawn (s : State) : List (Nat × Nat) := s.trace.filterMap Event.draw?

/-- Every draw of the trace is one of the engine's own generator, earlier than the next, and none occurs twice (R67, R69:
each draw is fresh). -/
def State.DrawsFresh (s : State) : Prop := s.drawn.Nodup ∧ ∀ p ∈ s.drawn, p.1 = s.timer ∧ p.2 < s.draws

/-- The transient registers are void (R19, R24). -/
def State.Void (s : State) : Prop := s.rb = none ∧ s.ds = none ∧ s.err = none

/-- The states the rules admit: what LS, RB, DS and ERR hold at each value of SEQ (R10, R14, R19, R24, R89 to R95). -/
def State.Consistent (s : State) : Prop :=
  match s.seq with
  | .idle => s.Void
  | .hSend1 | .hBusy | .hSend2 => s.ls = .uninitialized ∧ s.Void
  | .rWait1 | .rTrig | .rWait2 | .rRecv => s.ls = .polling ∧ s.Void
  | .pDecode => s.ls = .polling ∧ s.rb ≠ none ∧ s.ds = none ∧ s.err = none
  | .pKeyC | .pKeyZ | .pAbsX | .pAbsY | .pSync =>
    s.ls = .polling ∧ s.err = none ∧ ∃ r, s.rb = some r ∧ s.ds = some (decodeResponse r)
  | .pDiag => s.ls = .polling ∧ s.rb = none ∧ s.ds = none ∧ ∃ c, s.err = some c ∧ c.toInt < 0

/-- How far the transport calls of a run have come (R46, R71, R73). -/
inductive BusPhase where
  /-- No call yet. -/
  | fresh
  /-- INIT1 was accepted; INIT2 must be the next call. -/
  | opened
  /-- The handshake succeeded; the next call, if any, is a trigger. -/
  | ready
  /-- A trigger was accepted; the next call, if any, is a receive of 6. -/
  | asked
  /-- The handshake failed; there is no further call. -/
  | closed
  deriving DecidableEq, Repr

/-- The calls the protocol allows, and nothing else (R37, R46, R71, R73, R78). -/
def BusPhase.after : BusPhase → TransportCall → Option BusPhase
  | .fresh, .send f r =>
    if f = Config.init1Frame then some (if r.toInt = 2 then .opened else .closed) else none
  | .opened, .send f r =>
    if f = Config.init2Frame then some (if r.toInt = 2 then .ready else .closed) else none
  | .ready, .send f r =>
    if f = Config.trigFrame then some (if r.toInt = 1 then .asked else .ready) else none
  | .asked, .recv n _ => if n = Config.nResp then some .ready else none
  | _, _ => none

/-- The phase a list of calls leads to; none where a call is not allowed. -/
def BusPhase.afterAll : BusPhase → List TransportCall → Option BusPhase
  | p, [] => some p
  | p, c :: rest =>
    match p.after c with
    | some q => q.afterAll rest
    | none => none

/-- The phase an engine is in by its registers. -/
def State.busPhase (s : State) : BusPhase :=
  match s.seq with
  | .hSend1 => .fresh
  | .hBusy | .hSend2 => .opened
  | .rWait2 | .rRecv => .asked
  | .idle =>
    match s.ls with
    | .uninitialized => .fresh
    | .failed => .closed
    | .polling | .stopped => .ready
  | _ => .ready

/-- The calls made so far are allowed ones and end where the registers say. -/
def State.BusConforms (s : State) : Prop := BusPhase.fresh.afterAll s.calls = some s.busPhase

/-- How many messages of a batch are out, after one more: C, Z, X, Y, then sync (R48, R88). Values are bytes (R59). -/
def batchAfter : Nat → SinkMessage → Option Nat
  | 0, .reportKey .keyC _ => some 1
  | 1, .reportKey .keyZ _ => some 2
  | 2, .reportAbs .absX v => if v < 256 then some 3 else none
  | 3, .reportAbs .absY v => if v < 256 then some 4 else none
  | 4, .sync => some 0
  | _, _ => none

/-- The place in a batch after a list of messages; none where the order is broken. -/
def batchAfterAll : Nat → List SinkMessage → Option Nat
  | n, [] => some n
  | n, m :: rest =>
    match batchAfter n m with
    | some k => batchAfterAll k rest
    | none => none

/-- The place in a batch by SEQ. -/
def State.batchPlace (s : State) : Nat :=
  match s.seq with
  | .pKeyZ => 1
  | .pAbsX => 2
  | .pAbsY => 3
  | .pSync => 4
  | _ => 0

/-- The sink has whole batches in the one order, and of the last one what SEQ says (R48, R100). -/
def State.BatchesWhole (s : State) : Prop := batchAfterAll 0 s.sinkMessages = some s.batchPlace

/-- The event is a settle delay. -/
def Event.isSleep : Event → Bool
  | .delay (.sleep _ _) => true
  | _ => false

/-- The event is the busy-wait of the handshake. -/
def Event.isGap : Event → Bool
  | .delay (.busyWait us) => us == Config.initGapUs
  | _ => false

/-- The event is the first handshake write, accepted. -/
def Event.isFirstWrite : Event → Bool
  | .transport (.send f r) => f == Config.init1Frame && r.toInt == 2
  | _ => false

/-- What must stand directly before an event: a settle delay before a trigger or a receive (R133), the gap before the
second handshake write and the first before the gap, with nothing between (R75, R135). -/
def mayFollow (before : Option Event) : Event → Bool
  | .transport (.send f _) =>
    if f = Config.trigFrame then before.any Event.isSleep
    else if f = Config.init2Frame then before.any Event.isGap
    else f == Config.init1Frame
  | .transport (.recv _ _) => before.any Event.isSleep
  | .delay (.busyWait _) => before.any Event.isFirstWrite
  | .delay (.sleep _ _) | .sink _ | .diag _ | .done _ => true

/-- Every event of a list may follow the one before it. -/
def spaced : Option Event → List Event → Bool
  | _, [] => true
  | before, e :: rest => mayFollow before e && spaced (some e) rest

/-- The trace keeps the required delays, and its last event is the one that the step at SEQ needs before it. -/
def State.WellSpaced (s : State) : Prop :=
  spaced none s.trace = true ∧
  match s.seq with
  | .rTrig | .rRecv => s.trace.getLast?.any Event.isSleep = true
  | .hBusy => s.trace.getLast?.any Event.isFirstWrite = true
  | .hSend2 => s.trace.getLast?.any Event.isGap = true
  | _ => True

/-- The host presents nothing at this step. -/
def State.hostQuiet (s : State) : Bool :=
  match s.host with
  | [] => true
  | .quiet :: _ => true
  | _ => false

/-- The host's duties at this step: a command or a reset only while BUSY = 0, ATTACH only first, TICK and DETACH only
while Polling (R127, R128, R130, R131). -/
def State.HostObeys (s : State) : Prop :=
  match s.host with
  | .command c :: _ =>
    s.seq = .idle ∧ ((c = 0b00#2 ∧ s.ls = .uninitialized) ∨ ((c = 0b01#2 ∨ c = 0b10#2) ∧ s.ls = .polling))
  | .reset :: _ => s.seq = .idle
  | _ => True

/-- The run has ended (R142). -/
def State.Ended (s : State) : Prop := (s.ls = .stopped ∨ s.ls = .failed) ∧ s.seq = .idle

/-- `k` steps of the engine: the host's `Core.run` on `Sys2Proof.core`, at the model's own types. -/
def runSteps (k : Nat) (s : State) : Host.Outcome State Fault Refusal := Sys2Proof.core.run k s

/-- No two running devices of one bus occupy it: a handshake, from the issue of its first write to the return of its
second, meets no other transaction, nor does a transaction meet another (R38, R46, R75, R122, R135); of a device stopped
by an overlap nothing is promised (R99). -/
def System.BusExclusive (y : System) : Prop :=
  ∀ (i j : Nat) (d e : Device), y.devices[i]? = some d → y.devices[j]? = some e → i ≠ j → d.bus = e.bus →
    d.stop = none → e.stop = none → ¬ (d.occupiesBus = true ∧ e.occupiesBus = true)

/-- A call marked as outstanding is one the transport has no answer for. -/
def System.CallsOutstanding (y : System) : Prop :=
  ∀ (i : Nat) (d : Device), y.devices[i]? = some d → d.calling = true → d.engine.callUnanswered = true

/-- Each device has its own delay generator and has drawn from it alone (R23, R122, R137). -/
def System.TimersOwn (y : System) : Prop :=
  (∀ (i j : Nat) (d e : Device), y.devices[i]? = some d → y.devices[j]? = some e → i ≠ j →
    d.engine.timer ≠ e.engine.timer) ∧
  ∀ (i : Nat) (d : Device), y.devices[i]? = some d → d.engine.DrawsFresh

end Sys2Proof.Machine
end

