-- ==== Sys2Proof/Certificates/Slice0/Obligations.lean ====
section
/-! DEFINITION. The statements for the provers, from the numbered rules of spec/. Each next state is written out field
by field, so an equality with it is the instruction's result, its completion and its whole frame at once. -/

open Sys2Proof Sys2Proof.Machine

/-! ## Encoding -/

/-- Words written out from the tables of R52, R53, R54, R55, R60, R63 decode to what they stand for, or are rejected by
name. -/
def Obligations.SpecWordsDecode : Prop :=
  decode (.cmd 0b00#2) = .ok .attach ∧ decode (.cmd 0b01#2) = .ok .tick ∧ decode (.cmd 0b10#2) = .ok .detach ∧
  decode (.cmd 0b11#2) = .error .reservedCommand ∧
  decode (.uop 0b0001#4) = .ok .hSend1 ∧ decode (.uop 0b0111#4) = .ok .rRecv ∧ decode (.uop 0b1110#4) = .ok .pDiag ∧
  decode (.uop 0b0000#4) = .error .idleIsNoStep ∧ decode (.uop 0b1111#4) = .error .reservedStep ∧
  decode (.w1 0b00000000#8) = .ok .trig ∧ decode (.w1 0b00000001#8) = .error .unknownFrame1 ∧
  decode (.w2 0b11110000#8 0b01010101#8) = .ok .init1 ∧ decode (.w2 0b11111011#8 0b00000000#8) = .ok .init2 ∧
  decode (.w2 0b01010101#8 0b11110000#8) = .error .unknownFrame2 ∧
  decode (.r6 ⟨0x80#8, 0x7F#8, 0x01#8, 0x02#8, 0x03#8, 0b11111101#8⟩)
    = .ok (.resp 0x80#8 0x7F#8 0x01#8 0x02#8 0x03#8 0b111111#6 0#1 1#1)

/-- Decoding and encoding agree, both ways: a word decodes to an instruction exactly when it is that instruction's
encoding. So no bit of RESP is dropped and no word has two meanings. -/
def Obligations.DecodeIsTheInverseOfEncode : Prop :=
  ∀ (e : Encoded) (i : Instr), decode e = .ok i ↔ e = encode i

/-- The words that decode are exactly the well-formed ones (R62: no response is illegal; R63: `11` and `1111` are
reserved). -/
def Obligations.WellFormedWordsAreThoseThatDecode : Prop :=
  ∀ e : Encoded, e.wellFormed = true ↔ ∃ i, decode e = .ok i

/-- From bytes: every instruction with a binary form is decoded from the bytes of its encoding. -/
def Obligations.BytesDecodeToTheirInstruction : Prop :=
  ∀ i : Instr, (encode i).format ≠ .op → decodeBytes (encode i).format (encode i).bytes = .ok i

/-- The fields of the 48-bit RESP pattern stand where R55's table puts them (bit 47 is leftmost). -/
def Obligations.RespFieldsStandWhereTheTableSays : Prop :=
  ∀ w : Nat, w < 2 ^ 48 →
    decodeTableWord 48 w = some (.resp (BitVec.ofNat 8 (w / 2 ^ 40)) (BitVec.ofNat 8 (w / 2 ^ 32))
      (BitVec.ofNat 8 (w / 2 ^ 24)) (BitVec.ofNat 8 (w / 2 ^ 16)) (BitVec.ofNat 8 (w / 2 ^ 8))
      (BitVec.ofNat 6 (w / 2 ^ 2)) (BitVec.ofNat 1 (w / 2)) (BitVec.ofNat 1 w))

/-! ## Reset and constants -/

/-- What reset leaves (R22, R132) and the constants it does not change (R16, R17). -/
def Obligations.ResetLeavesTheStatedValues : Prop :=
  State.reset.ls = .uninitialized ∧ State.reset.seq = .idle ∧ State.reset.st = .none ∧
  State.reset.rb = none ∧ State.reset.ds = none ∧ State.reset.err = none ∧
  State.reset.busy = false ∧ State.reset.busHold = false ∧
  State.reset.ls.code = 0b00#2 ∧ State.reset.seq.code = 0b0000#4 ∧ State.reset.st.code = 0b00#2 ∧
  Config.pollMinMs = 50 ∧ Config.pollMaxMs = 50 ∧ Config.pollNomMs = 50 ∧
  Config.axisX = ⟨30, 220, 4, 8⟩ ∧ Config.axisY = ⟨40, 200, 4, 8⟩ ∧
  Config.declaredKeys = 13 ∧ Config.reservedKeys = 11

/-- The reset event (R132): at IDLE every register has its reset value and nothing is output; while BUSY it has no outcome.
That the inputs still to come, the engine's generator and the count of its draws stay is log entry 12. -/
def Obligations.ResetEventRestoresTheResetState : Prop :=
  ∀ (s : State) (rest : List HostEvent), s.host = .reset :: rest →
    (s.seq = .idle →
      step s = .next
        { State.reset with host := rest, sends := s.sends, recvs := s.recvs, timer := s.timer, draws := s.draws }) ∧
    (s.seq ≠ .idle → step s = .fault .overlap)

/-- BUSY and bus_hold are what R9 and R15 derive from SEQ. -/
def Obligations.DerivedFlagsFollowSeq : Prop :=
  ∀ s : State,
    (s.busy = true ↔ s.seq ≠ .idle) ∧
    (s.busHold = true ↔ s.seq = .hSend1 ∨ s.seq = .hBusy ∨ s.seq = .hSend2)

/-- The identifiers toward the sink are distinct within their kind (R59), whatever they are. -/
def Obligations.SinkIdentifiersAreDistinct : Prop :=
  Config.keyNumbers.1 ≠ Config.keyNumbers.2 ∧ Config.axisNumbers.1 ≠ Config.axisNumbers.2

/-! ## Commands -/

/-- At IDLE, ATTACH in Uninitialized and TICK in Polling start their step lists, and nothing else changes (R86). -/
def Obligations.AcceptedCommandsStartTheirSteps : Prop :=
  ∀ s : State, s.seq = .idle →
    (s.ls = .uninitialized → exec .attach s = .next { s with seq := .hSend1 }) ∧
    (s.ls = .polling → exec .tick s = .next { s with seq := .rWait1 })

/-- DETACH (R96), code `10`: accepted only in Polling and at IDLE, `LS <- Stopped; Done(OK)` with no transport call, sink
message or diagnostic; refused in the other lifecycle states (R98), an overlap while BUSY = 1 (R99). That a refusal is a
next state is the model's choice, log entry 10. -/
def Obligations.DetachStopsTheEngine : Prop :=
  encode .detach = .cmd 0b10#2 ∧
  ∀ s : State,
    (s.seq = .idle → s.ls = .polling →
      exec .detach s = .next
        { s with ls := .stopped, st := .ok, rb := none, ds := none, err := none, trace := s.trace ++ [.done .ok] }) ∧
    (s.seq = .idle → s.ls ≠ .polling →
      exec .detach s = .next
        { s with st := .refused, rb := none, ds := none, err := none, trace := s.trace ++ [.done .refused] }) ∧
    (s.seq ≠ .idle → exec .detach s = .fault .overlap)

/-- Every refusal of R97's table, and the reserved code (R63): `Done(REFUSED)` as R86 defines it, LS unchanged, nothing
outside the engine but the completion (R98). That a refusal is a next state is the model's choice, log entry 10. -/
def Obligations.RefusedCommandsChangeOnlyStatus : Prop :=
  ∀ s : State, s.seq = .idle →
    let refusedState : State :=
      { s with st := .refused, rb := none, ds := none, err := none, trace := s.trace ++ [.done .refused] }
    (s.ls ≠ .uninitialized → exec .attach s = .next refusedState) ∧
    (s.ls ≠ .polling → exec .tick s = .next refusedState) ∧
    (s.ls ≠ .polling → exec .detach s = .next refusedState) ∧
    (∀ rest, s.host = .command 0b11#2 :: rest → step s = .next { refusedState with host := rest })

/-- A command presented while BUSY = 1 is a fault with no outcome: never a value, a drop or a queue (R99). -/
def Obligations.OverlapHasNoOutcome : Prop :=
  ∀ s : State, s.busy = true →
    exec .attach s = .fault .overlap ∧ exec .tick s = .fault .overlap ∧ exec .detach s = .fault .overlap ∧
    (∀ code rest, s.host = .command code :: rest → step s = .fault .overlap)

/-! ## The Initialization Handshake -/

/-- H_SEND1, step code `0001`, and the frame INIT1 it issues (R54, R74; failure as R111). That the frame
runs as the step that issues it is the model's reading, log entry 13. -/
def Obligations.FirstHandshakeWrite : Prop :=
  encode .hSend1 = .uop 0b0001#4 ∧
  ∀ (i : Instr) (s : State) (ret : Ret) (rest : List Ret), i = .hSend1 ∨ i = .init1 → s.sends = ret :: rest →
    let sent : State := { s with sends := rest, trace := s.trace ++ [.transport (.send [0xF0#8, 0x55#8] ret)] }
    let failedWith (c : Ret) : State :=
      { sent with ls := .failed, st := .attachError, rb := none, ds := none, err := none, seq := .idle,
                  trace := sent.trace ++ [.done (.attachError c)] }
    (ret.toInt = 2 → exec i s = .next { sent with seq := .hBusy }) ∧
    (ret.toInt < 0 → exec i s = .next (failedWith ret)) ∧
    (0 ≤ ret.toInt → ret.toInt ≠ 2 → exec i s = .next (failedWith Config.eIO))

/-- H_BUSY (R75): the busy-wait is recorded, SEQ goes on to H_SEND2, nothing else changes; the bus is held before and
after. -/
def Obligations.HandshakeGapHoldsTheBus : Prop :=
  ∀ s : State,
    exec .hBusy s = .next { s with seq := .hSend2, trace := s.trace ++ [.delay (.busyWait 1000)] } ∧
    (s.seq = .hBusy → s.busHold = true ∧ ({ s with seq := .hSend2 } : State).busHold = true)

/-- H_SEND2, step code `0011`, and the frame INIT2 it issues (R54, R76; failure as R111). That the frame
runs as the step that issues it is the model's reading, log entry 13. -/
def Obligations.SecondHandshakeWrite : Prop :=
  encode .hSend2 = .uop 0b0011#4 ∧
  ∀ (i : Instr) (s : State) (ret : Ret) (rest : List Ret), i = .hSend2 ∨ i = .init2 → s.sends = ret :: rest →
    let sent : State := { s with sends := rest, trace := s.trace ++ [.transport (.send [0xFB#8, 0x00#8] ret)] }
    let completed (l : Lifecycle) (c : Completion) (status : Status) : State :=
      { sent with ls := l, st := status, rb := none, ds := none, err := none, seq := .idle,
                  trace := sent.trace ++ [.done c] }
    (ret.toInt = 2 → exec i s = .next (completed .polling .ok .ok)) ∧
    (ret.toInt < 0 → exec i s = .next (completed .failed (.attachError ret) .attachError)) ∧
    (0 ≤ ret.toInt → ret.toInt ≠ 2 →
      exec i s = .next (completed .failed (.attachError Config.eIO) .attachError))

/-- INIT as a whole (R73): the five rows of its trace table. `a` and `b` are the answers to the two writes; `b` is asked
for only where the first write was accepted. -/
def Obligations.InitOperation : Prop :=
  ∀ (s : State) (a : Ret) (rs : List Ret), s.sends = a :: rs →
    let first : List Event := [.transport (.send [0xF0#8, 0x55#8] a)]
    let ended (l : Lifecycle) (status : Status) (c : Completion) (left : List Ret) (out : List Event) : State :=
      { s with ls := l, st := status, rb := none, ds := none, err := none, seq := .idle, sends := left,
               trace := s.trace ++ out ++ [.done c] }
    (a.toInt < 0 → exec .init s = .next (ended .failed .attachError (.attachError a) rs first)) ∧
    (0 ≤ a.toInt → a.toInt ≠ 2 →
      exec .init s = .next (ended .failed .attachError (.attachError Config.eIO) rs first)) ∧
    (a.toInt = 2 → ∀ (b : Ret) (rest : List Ret), rs = b :: rest →
      let both : List Event := first ++ [.delay (.busyWait 1000), .transport (.send [0xFB#8, 0x00#8] b)]
      (b.toInt = 2 → exec .init s = .next (ended .polling .ok .ok rest both)) ∧
      (b.toInt < 0 → exec .init s = .next (ended .failed .attachError (.attachError b) rest both)) ∧
      (0 ≤ b.toInt → b.toInt ≠ 2 →
        exec .init s = .next (ended .failed .attachError (.attachError Config.eIO) rest both)))

/-! ## The Register Protocol -/

/-- R_WAIT1 and R_WAIT2 (R67, R69): a fresh draw in [10 ms, 20 ms) is recorded and SEQ goes on; nothing else changes,
and the bus is free. -/
def Obligations.SettleDelaysSleepAndGoOn : Prop :=
  ∀ s : State,
    exec .rWait1 s = .next
      { s with seq := .rTrig, draws := s.draws + 1, trace := s.trace ++ [.delay (.sleep s.timer s.draws)] } ∧
    exec .rWait2 s = .next
      { s with seq := .rRecv, draws := s.draws + 1, trace := s.trace ++ [.delay (.sleep s.timer s.draws)] } ∧
    10 ≤ Config.settleDelayMs s.timer s.draws ∧ Config.settleDelayMs s.timer s.draws < 20 ∧
    (s.seq = .rWait1 ∨ s.seq = .rWait2 → s.busHold = false)

/-- R_TRIG, step code `0101`, and the frame TRIG it issues (R53, R68; failure as R110). That the frame runs
as the step that issues it is the model's reading, log entry 13. -/
def Obligations.TriggerWrite : Prop :=
  encode .rTrig = .uop 0b0101#4 ∧
  ∀ (i : Instr) (s : State) (ret : Ret) (rest : List Ret), i = .rTrig ∨ i = .trig → s.sends = ret :: rest →
    let sent : State := { s with sends := rest, trace := s.trace ++ [.transport (.send [0x00#8] ret)] }
    (ret.toInt = 1 → exec i s = .next { sent with seq := .rWait2 }) ∧
    (ret.toInt < 0 → exec i s = .next { sent with err := some ret, seq := .pDiag }) ∧
    (0 ≤ ret.toInt → ret.toInt ≠ 1 → exec i s = .next { sent with err := some Config.eIO, seq := .pDiag })

/-- R_RECV, step code `0111` (R70; failure as R110): all six bytes or none. -/
def Obligations.ResponseRead : Prop :=
  encode .rRecv = .uop 0b0111#4 ∧
  ∀ (s : State) (a : RecvAnswer) (rest : List RecvAnswer), s.recvs = a :: rest →
    let got : State := { s with recvs := rest, trace := s.trace ++ [.transport (.recv 6 a)] }
    (a.ret.toInt = 6 → exec .rRecv s = .next { got with rb := some a.data, seq := .pDecode }) ∧
    (a.ret.toInt < 0 → exec .rRecv s = .next { got with err := some a.ret, seq := .pDiag }) ∧
    (0 ≤ a.ret.toInt → a.ret.toInt ≠ 6 →
      exec .rRecv s = .next { got with err := some Config.eIO, seq := .pDiag })

/-- RESP (R55, R56): a received frame goes into RB whole, and the P_DECODE after it reads exactly its fields X, Y, CN
and ZN, the buttons inverted. That the frame runs as a successful receive is the model's reading, log entry 13. -/
def Obligations.ResponseFrameIsTakenInAndDecoded : Prop :=
  ∀ (x y a2 a3 a4 : Byte) (rsv : BitVec 6) (cn zn : BitVec 1) (s : State),
    let raw : RawResponse := ⟨x, y, a2, a3, a4, rsv ++ cn ++ zn⟩
    let taken : State :=
      { s with recvs := s.recvs.tail, rb := some raw, seq := .pDecode,
               trace := s.trace ++ [.transport (.recv 6 ⟨6#32, raw, []⟩)] }
    exec (.resp x y a2 a3 a4 rsv cn zn) s = .next taken ∧
    exec .pDecode taken = .next
      { taken with ds := some ⟨x, y, cn == 0#1, zn == 0#1⟩, seq := .pKeyC }

/-- READ_STATE as a whole (R71): the five rows of its trace table. `a` answers the trigger; `b` answers the receive, which
is made only after an accepted trigger. -/
def Obligations.ReadStateOperation : Prop :=
  ∀ (s : State) (a : Ret) (rs : List Ret), s.sends = a :: rs →
    let asked : State :=
      { s with seq := .pDiag, sends := rs, draws := s.draws + 1,
               trace := s.trace ++ [.delay (.sleep s.timer s.draws), .transport (.send [0x00#8] a)] }
    (a.toInt < 0 → exec .readState s = .next { asked with err := some a }) ∧
    (0 ≤ a.toInt → a.toInt ≠ 1 → exec .readState s = .next { asked with err := some Config.eIO }) ∧
    (a.toInt = 1 → ∀ (b : RecvAnswer) (rr : List RecvAnswer), s.recvs = b :: rr →
      let received : State :=
        { asked with recvs := rr, draws := s.draws + 2,
                     trace := asked.trace ++ [.delay (.sleep s.timer (s.draws + 1)), .transport (.recv 6 b)] }
      (b.ret.toInt = 6 → exec .readState s = .next { received with rb := some b.data, seq := .pDecode }) ∧
      (b.ret.toInt < 0 → exec .readState s = .next { received with err := some b.ret }) ∧
      (0 ≤ b.ret.toInt → b.ret.toInt ≠ 6 → exec .readState s = .next { received with err := some Config.eIO }))

/-- A call the transport has not answered has not returned: the step stays where it is and BUSY stays 1 (U12). That an
empty list of answers is such a call is the model's choice, log entry 3. -/
def Obligations.UnansweredCallsDoNotReturn : Prop :=
  ∀ s : State,
    (s.sends = [] → ∀ i : Instr,
      i = .hSend1 ∨ i = .hSend2 ∨ i = .rTrig ∨ i = .init1 ∨ i = .init2 ∨ i = .trig → exec i s = .next s) ∧
    (s.recvs = [] → exec .rRecv s = .next s)

/-- The transfer-count validation in full, that every recorded code is negative, and the expected counts 1, 2, 2 and 6
(R35). -/
def Obligations.ClassifySeparatesCounts : Prop :=
  (Config.trigFrame.length = 1 ∧ Config.init1Frame.length = 2 ∧ Config.init2Frame.length = 2 ∧ Config.nResp = 6) ∧
  ∀ (ret : Ret) (n : Nat),
    (ret.toInt = n → classify ret n = .ok) ∧
    (ret.toInt < 0 → classify ret n = .err ret) ∧
    (0 ≤ ret.toInt → ret.toInt ≠ n → classify ret n = .err Config.eIO) ∧
    (∀ c, classify ret n = .err c → c.toInt < 0)

/-! ## The Decoder and the poll family -/

/-- P_DECODE, and the operation DECODE: the four fields of R80 to R83, bit by bit, and nothing else (R79, R89). -/
def Obligations.DecodeStepFillsTheDecodedState : Prop :=
  ∀ (i : Instr) (s : State) (r : RawResponse), i = .pDecode ∨ i = .decode → s.rb = some r →
    exec i s = .next
      { s with ds := some ⟨r.b0, r.b1, !(r.b5.getLsbD 1), !(r.b5.getLsbD 0)⟩, seq := .pKeyC }

/-- The decoded state depends on byte 0, byte 1 and bits 1 and 0 of byte 5 alone, and on all of them; every decoded
state occurs (R84, and the bijection of 95_test_vectors 2.1). -/
def Obligations.DecodeReadsExactlyFourFields : Prop :=
  (∀ r q : RawResponse,
    decodeResponse r = decodeResponse q ↔
      r.b0 = q.b0 ∧ r.b1 = q.b1 ∧ r.b5.getLsbD 1 = q.b5.getLsbD 1 ∧ r.b5.getLsbD 0 = q.b5.getLsbD 0) ∧
  (∀ d : DecodedState, ∃ r : RawResponse, decodeResponse r = d)

/-- The four report steps (R90 to R93), codes `1001` to `1100`: one message each, the raw byte as an integer, SEQ goes on,
nothing else changes. -/
def Obligations.ReportStepsEmitOneMessage : Prop :=
  encode .pKeyC = .uop 0b1001#4 ∧ encode .pKeyZ = .uop 0b1010#4 ∧ encode .pAbsX = .uop 0b1011#4 ∧
  encode .pAbsY = .uop 0b1100#4 ∧
  ∀ (s : State) (d : DecodedState), s.ds = some d →
    exec .pKeyC s = .next { s with seq := .pKeyZ, trace := s.trace ++ [.sink (.reportKey .keyC d.bc)] } ∧
    exec .pKeyZ s = .next { s with seq := .pAbsX, trace := s.trace ++ [.sink (.reportKey .keyZ d.bz)] } ∧
    exec .pAbsX s = .next { s with seq := .pAbsY, trace := s.trace ++ [.sink (.reportAbs .absX d.ax.toNat)] } ∧
    exec .pAbsY s = .next { s with seq := .pSync, trace := s.trace ++ [.sink (.reportAbs .absY d.ay.toNat)] }

/-- P_SYNC (R94), step code `1101`: `sync(); Done(OK)`. -/
def Obligations.SyncStepCompletesTheTick : Prop :=
  encode .pSync = .uop 0b1101#4 ∧
  ∀ s : State, exec .pSync s = .next
    { s with st := .ok, rb := none, ds := none, err := none, seq := .idle,
             trace := s.trace ++ [.sink .sync, .done .ok] }

/-- P_DIAG (R95): `Diag(ERR); Done(OK)`, the return from the error path of a tick. -/
def Obligations.DiagStepReturnsFromTheError : Prop :=
  ∀ (s : State) (c : Ret), s.err = some c → exec .pDiag s = .next
    { s with st := .ok, rb := none, ds := none, err := none, seq := .idle,
             trace := s.trace ++ [.diag c, .done .ok] }

/-- A read of a void register is a fault, at every step that reads one (R19). -/
def Obligations.VoidRegistersCannotBeRead : Prop :=
  ∀ s : State,
    (s.rb = none → exec .pDecode s = .fault (.voidRead .rb) ∧ exec .decode s = .fault (.voidRead .rb)) ∧
    (s.ds = none → ∀ i : Instr, i = .pKeyC ∨ i = .pKeyZ ∨ i = .pAbsX ∨ i = .pAbsY →
      exec i s = .fault (.voidRead .ds)) ∧
    (s.err = none → exec .pDiag s = .fault (.voidRead .err))

/-- POLL as a whole (R88): with answers 1 and 6 the batch C, Z, X, Y, sync of the six bytes, else one diagnostic with
the code of the failing call and nothing to the sink; `Done(OK)` either way; LS never changes. The receive is made, and
needs an answer, only after an accepted trigger. -/
def Obligations.PollOperation : Prop :=
  ∀ (s : State) (a : Ret) (rs : List Ret), s.sends = a :: rs →
    let asked : List Event := [.delay (.sleep s.timer s.draws), .transport (.send [0x00#8] a)]
    let ended (left : List RecvAnswer) (n : Nat) (out : List Event) : State :=
      { s with st := .ok, rb := none, ds := none, err := none, seq := .idle, sends := rs, recvs := left,
               draws := s.draws + n, trace := s.trace ++ out ++ [.done .ok] }
    (a.toInt < 0 → exec .poll s = .next (ended s.recvs 1 (asked ++ [.diag a]))) ∧
    (0 ≤ a.toInt → a.toInt ≠ 1 → exec .poll s = .next (ended s.recvs 1 (asked ++ [.diag Config.eIO]))) ∧
    (a.toInt = 1 → ∀ (b : RecvAnswer) (rr : List RecvAnswer), s.recvs = b :: rr →
      let both : List Event := asked ++ [.delay (.sleep s.timer (s.draws + 1)), .transport (.recv 6 b)]
      let batch : List Event :=
        [.sink (.reportKey .keyC (!(b.data.b5.getLsbD 1))), .sink (.reportKey .keyZ (!(b.data.b5.getLsbD 0))),
         .sink (.reportAbs .absX b.data.b0.toNat), .sink (.reportAbs .absY b.data.b1.toNat), .sink .sync]
      (b.ret.toInt = 6 → exec .poll s = .next (ended rr 2 (both ++ batch))) ∧
      (b.ret.toInt < 0 → exec .poll s = .next (ended rr 2 (both ++ [.diag b.ret]))) ∧
      (0 ≤ b.ret.toInt → b.ret.toInt ≠ 6 → exec .poll s = .next (ended rr 2 (both ++ [.diag Config.eIO]))))

/-- Tick independence (R100): what a poll outputs and leaves in ST, RB, DS and ERR is a function of the oracle's answers
(and of the draws) alone, whatever else the two states hold. The calls it makes are answered. -/
def Obligations.PollDependsOnItsAnswersAlone : Prop :=
  ∀ (s q t u : State) (a : Ret) (rs : List Ret), s.sends = a :: rs → q.sends = s.sends → q.recvs = s.recvs →
    q.timer = s.timer → q.draws = s.draws → (a.toInt = 1 → s.recvs ≠ []) →
    exec .poll s = .next t → exec .poll q = .next u →
    (∃ out, t.trace = s.trace ++ out ∧ u.trace = q.trace ++ out) ∧
    t.st = u.st ∧ t.rb = u.rb ∧ t.ds = u.ds ∧ t.err = u.err ∧ t.seq = u.seq ∧ t.ls = s.ls ∧ u.ls = q.ls

/-- The time slept in a tick (R139): a reported tick at least 20 ms and less than 40, a tick that fails at the trigger
at least 10 ms and less than 20. -/
def Obligations.TickSleepsWithinItsBounds : Prop :=
  ∀ (s t : State) (a : Ret) (rs : List Ret), s.sends = a :: rs → exec .poll s = .next t →
    ∃ out, t.trace = s.trace ++ out ∧
      (a.toInt ≠ 1 → 10 ≤ sleptMs out ∧ sleptMs out < 20) ∧
      (a.toInt = 1 → ∀ (b : RecvAnswer) (rr : List RecvAnswer), s.recvs = b :: rr → b.ret.toInt = 6 →
        20 ≤ sleptMs out ∧ sleptMs out < 40)

/-! ## The step -/

/-- A step runs the decoded instruction: the code in SEQ while the host presents nothing, the command code when it
presents one (the event is consumed); at IDLE with nothing presented the engine waits. -/
def Obligations.StepRunsTheDecodedInstruction : Prop :=
  (∀ (s : State) (i : Instr), s.hostQuiet = true → decode (.uop s.seq.code) = .ok i →
    step s = exec i { s with host := s.host.tail }) ∧
  (∀ (s : State) (i : Instr) (code : BitVec 2) (rest : List HostEvent),
    s.host = .command code :: rest → decode (.cmd code) = .ok i → step s = exec i { s with host := rest }) ∧
  (∀ s : State, s.hostQuiet = true → s.seq = .idle → step s = .next { s with host := s.host.tail })

/-- The word put where the next step takes its instruction from is the one that step runs (log entry 16). -/
def Obligations.FetchWordIsTheNextInstruction : Prop :=
  ∀ (s : State) (nbits w : Nat) (i : Instr), decodeTableWord nbits w = some i →
    step (s.withFetchWord nbits w) = exec i { s.withFetchWord nbits w with host := (s.withFetchWord nbits w).host.tail }

/-- What a step may output (R101): each kind of event only at the steps that cause it, and a completion only at a step
that completes a command or at IDLE when a command is presented; all others only while the host presents nothing. -/
def Obligations.OutputsComeFromTheirSteps : Prop :=
  ∀ s t : State, s.host.head? ≠ some .reset → step s = .next t →
    ∃ out : List Event, t.trace = s.trace ++ out ∧
      ∀ e ∈ out,
        match e with
        | .transport (.send _ _) => s.hostQuiet = true ∧ (s.seq = .hSend1 ∨ s.seq = .hSend2 ∨ s.seq = .rTrig)
        | .transport (.recv _ _) => s.hostQuiet = true ∧ s.seq = .rRecv
        | .delay (.busyWait _) => s.hostQuiet = true ∧ s.seq = .hBusy
        | .delay (.sleep _ _) => s.hostQuiet = true ∧ (s.seq = .rWait1 ∨ s.seq = .rWait2)
        | .sink _ =>
          s.hostQuiet = true ∧
            (s.seq = .pKeyC ∨ s.seq = .pKeyZ ∨ s.seq = .pAbsX ∨ s.seq = .pAbsY ∨ s.seq = .pSync)
        | .diag _ => s.hostQuiet = true ∧ s.seq = .pDiag
        | .done _ =>
          (s.hostQuiet = true ∧ (s.seq = .hSend1 ∨ s.seq = .hSend2 ∨ s.seq = .pSync ∨ s.seq = .pDiag)) ∨
            (s.seq = .idle ∧ ∃ code, s.host.head? = some (.command code))

/-- LS moves only by the transitions of R97, each at its own step, and by reset. -/
def Obligations.LifecycleMovesOnlyByItsTable : Prop :=
  ∀ s t : State, s.Consistent → step s = .next t →
    t.ls = s.ls ∨
    (s.ls = .uninitialized ∧ s.seq = .hSend2 ∧ t.ls = .polling ∧ t.st = .ok) ∨
    (s.ls = .uninitialized ∧ (s.seq = .hSend1 ∨ s.seq = .hSend2) ∧ t.ls = .failed ∧ t.st = .attachError) ∨
    (s.ls = .polling ∧ s.seq = .idle ∧ s.host.head? = some (.command 0b10#2) ∧ t.ls = .stopped ∧ t.st = .ok) ∨
    (s.seq = .idle ∧ s.host.head? = some .reset ∧ t.ls = .uninitialized)

/-! ## Invariants -/

/-- The invariants hold after reset, whatever inputs are to come. -/
def Obligations.ResetStateIsSafe : Prop :=
  ∀ (h : List HostEvent) (a : List Ret) (b : List RecvAnswer) (k n : Nat),
    let s : State := { State.reset with host := h, sends := a, recvs := b, timer := k, draws := n }
    s.Consistent ∧ s.BusConforms ∧ s.BatchesWhole ∧ s.WellSpaced ∧ s.DrawsFresh

/-- Every step keeps what LS, RB, DS and ERR hold at each value of SEQ: the transient registers are void between
commands (R24), RB and DS are written where they are read, ERR is negative (R14). -/
def Obligations.StepKeepsRegistersConsistent : Prop :=
  ∀ s t : State, s.Consistent → step s = .next t → t.Consistent

/-- From a consistent state the only stop is OverlapFault, and only when the host presents a command or a reset while
BUSY = 1: no void register is ever read, and no instruction is refused by the model. -/
def Obligations.OnlyOverlapStopsTheEngine : Prop :=
  ∀ s : State, s.Consistent →
    (∀ r, step s = .fault r → r = .overlap ∧ s.busy = true ∧ s.hostQuiet = false) ∧
    (∀ q, step s ≠ .refused q)

/-- A host that keeps its duties (R127, R128, R130, R131) is never stopped and never refused. -/
def Obligations.DutifulHostIsServed : Prop :=
  ∀ s : State, s.Consistent → s.HostObeys →
    ∃ t out, step s = .next t ∧ (s.host.head? ≠ some .reset → t.trace = s.trace ++ out) ∧ .done .refused ∉ out

/-- The transport observes only the call sequences the protocol allows: the two handshake writes in order with no call
between, no read before both succeeded, a receive only after an accepted trigger, nothing after a failed handshake. -/
def Obligations.StepKeepsBusConformance : Prop :=
  ∀ s t : State, s.Consistent → s.BusConforms → step s = .next t → t.BusConforms

/-- The sink observes only whole batches C, Z, X, Y, sync of byte values, the last one as far as SEQ has come: a tick
emits all five messages or none (R48, R100). -/
def Obligations.StepKeepsSinkBatchesWhole : Prop :=
  ∀ s t : State, s.Consistent → s.BatchesWhole → step s = .next t → t.BatchesWhole

/-- Every trigger and every receive stands directly after a settle delay, the second handshake write directly after the
busy-wait, and that directly after the first write (R75, R133, R135). -/
def Obligations.StepKeepsRequiredDelays : Prop :=
  ∀ s t : State, s.Consistent → s.WellSpaced → step s = .next t → t.WellSpaced

/-- Every settle delay is a fresh draw of the engine's own generator (R67, R69, R123): the draws of the trace never
repeat and lie below the counter. -/
def Obligations.StepKeepsDrawsFresh : Prop :=
  ∀ s t : State, s.DrawsFresh → step s = .next t → t.DrawsFresh

/-! ## Runs -/

/-- ATTACH as a run (R87): the command and the steps it starts, with a host that presents nothing meanwhile. The second
write is made, and needs an answer, only where the first was accepted. -/
def Obligations.AttachRunsTheHandshake : Prop :=
  ∀ (s : State) (a : Ret) (rs : List Ret) (more : List HostEvent),
    s.seq = .idle → s.ls = .uninitialized → s.sends = a :: rs →
    let first : List Event := [.transport (.send [0xF0#8, 0x55#8] a)]
    let ended (l : Lifecycle) (status : Status) (c : Completion) (left : List Ret) (out : List Event) : State :=
      { s with ls := l, st := status, rb := none, ds := none, err := none, seq := .idle, sends := left,
               host := more, trace := s.trace ++ out ++ [.done c] }
    (s.host = .command 0b00#2 :: .quiet :: more →
      (a.toInt < 0 → runSteps 2 s = .next (ended .failed .attachError (.attachError a) rs first)) ∧
      (0 ≤ a.toInt → a.toInt ≠ 2 →
        runSteps 2 s = .next (ended .failed .attachError (.attachError Config.eIO) rs first))) ∧
    (s.host = .command 0b00#2 :: .quiet :: .quiet :: .quiet :: more → a.toInt = 2 →
      ∀ (b : Ret) (rest : List Ret), rs = b :: rest →
      let both : List Event := first ++ [.delay (.busyWait 1000), .transport (.send [0xFB#8, 0x00#8] b)]
      (b.toInt = 2 → runSteps 4 s = .next (ended .polling .ok .ok rest both)) ∧
      (b.toInt < 0 → runSteps 4 s = .next (ended .failed .attachError (.attachError b) rest both)) ∧
      (0 ≤ b.toInt → b.toInt ≠ 2 →
        runSteps 4 s = .next (ended .failed .attachError (.attachError Config.eIO) rest both)))

/-- A TICK whose read succeeds, as a run of eleven steps (R88): both calls, the five messages, `done(OK)`, and the
engine is ready for the next command. -/
def Obligations.TickReportsOneBatch : Prop :=
  ∀ (s : State) (a : Ret) (b : RecvAnswer) (rs : List Ret) (rr : List RecvAnswer) (more : List HostEvent),
    s.seq = .idle → s.ls = .polling → s.sends = a :: rs → s.recvs = b :: rr →
    s.host = .command 0b01#2 :: (List.replicate 10 .quiet ++ more) → a.toInt = 1 → b.ret.toInt = 6 →
    runSteps 11 s = .next
      { s with st := .ok, rb := none, ds := none, err := none, seq := .idle, sends := rs, recvs := rr,
               host := more, draws := s.draws + 2,
               trace := s.trace ++
                 [.delay (.sleep s.timer s.draws), .transport (.send [0x00#8] a), .delay (.sleep s.timer (s.draws + 1)),
                  .transport (.recv 6 b), .sink (.reportKey .keyC (!(b.data.b5.getLsbD 1))),
                  .sink (.reportKey .keyZ (!(b.data.b5.getLsbD 0))), .sink (.reportAbs .absX b.data.b0.toNat),
                  .sink (.reportAbs .absY b.data.b1.toNat), .sink .sync, .done .ok] }

/-- A TICK whose read fails, as a run (R110, R113): one diagnostic with the code, nothing to the sink, LS stays Polling,
and the engine is ready for the next tick; after a failed trigger no receive call occurs, and none needs an answer. -/
def Obligations.TickSkipsAFailedRead : Prop :=
  ∀ (s : State) (a : Ret) (rs : List Ret) (more : List HostEvent),
    s.seq = .idle → s.ls = .polling → s.sends = a :: rs →
    let code (r : Ret) : Ret := if r.toInt < 0 then r else Config.eIO
    (s.host = .command 0b01#2 :: (List.replicate 3 .quiet ++ more) → a.toInt ≠ 1 →
      runSteps 4 s = .next
        { s with st := .ok, rb := none, ds := none, err := none, seq := .idle, sends := rs, host := more,
                 draws := s.draws + 1,
                 trace := s.trace ++ [.delay (.sleep s.timer s.draws), .transport (.send [0x00#8] a),
                   .diag (code a), .done .ok] }) ∧
    (s.host = .command 0b01#2 :: (List.replicate 5 .quiet ++ more) → a.toInt = 1 →
      ∀ (b : RecvAnswer) (rr : List RecvAnswer), s.recvs = b :: rr → b.ret.toInt ≠ 6 →
      runSteps 6 s = .next
        { s with st := .ok, rb := none, ds := none, err := none, seq := .idle, sends := rs, recvs := rr,
                 host := more, draws := s.draws + 2,
                 trace := s.trace ++ [.delay (.sleep s.timer s.draws), .transport (.send [0x00#8] a),
                   .delay (.sleep s.timer (s.draws + 1)), .transport (.recv 6 b), .diag (code b.ret), .done .ok] })

/-- The operations are what their steps do one by one (R66; that one exec runs the whole list is log entry 14), with a
host that presents nothing and for every answer, a call that never returns among them. POLL is ten steps from R_WAIT1,
INIT three from H_SEND1, DECODE one from P_DECODE. READ_STATE is four from R_WAIT1, and two where the trigger fails: it
ends where P_DIAG would begin. -/
def Obligations.OperationsRefineTheirSteps : Prop :=
  ∀ s : State, s.host = [] →
    runSteps 10 { s with seq := .rWait1 } = exec .poll s ∧
    runSteps 3 { s with seq := .hSend1 } = exec .init s ∧
    runSteps 1 { s with seq := .pDecode } = exec .decode s ∧
    ((∀ a rs, s.sends = a :: rs → a.toInt = 1) → runSteps 4 { s with seq := .rWait1 } = exec .readState s) ∧
    (∀ a rs, s.sends = a :: rs → a.toInt ≠ 1 → runSteps 2 { s with seq := .rWait1 } = exec .readState s)

/-- Every running command completes (R138), provided the transport answers: within ten steps SEQ is IDLE again. -/
def Obligations.RunningCommandsComplete : Prop :=
  ∀ s : State, s.Consistent → s.host = [] → 2 ≤ s.sends.length → 1 ≤ s.recvs.length →
    ∃ k t, k ≤ 10 ∧ runSteps k s = .next t ∧ t.seq = .idle ∧ t.Void

/-- An ended run stays ended (R142): whatever the host presents, short of a reset, every step completes, LS and SEQ stay,
and no transport call, sink message or diagnostic is ever made again. -/
def Obligations.EndedRunsStayEnded : Prop :=
  ∀ (k : Nat) (s : State), s.Ended → .reset ∉ s.host →
    ∃ t, runSteps k s = .next t ∧ t.ls = s.ls ∧ t.seq = .idle ∧
      t.calls = s.calls ∧ t.sinkMessages = s.sinkMessages ∧ t.diagnostics = s.diagnostics

/-! ## Several engines -/

/-- Engines meet only at the bus (R23, R122): a turn writes nothing of another device; what it does to its own device
is its engine's own step, read from nothing else, unless its engine is about to issue a call and another device is on
the same bus; then the arbiter of log entry 17 decides between that step and a wait, and nothing else. A call with no
answer is outstanding after that step. -/
def Obligations.DevicesShareOnlyTheBus : Prop :=
  ∀ (y : System) (i : Nat) (rest : List Nat) (d : Device), y.schedule = i :: rest → y.devices[i]? = some d →
    (∀ j, j ≠ i → y.step.devices[j]? = y.devices[j]?) ∧
    (y.step.devices[i]? = some (d.turn false) ∨ y.step.devices[i]? = some (d.turn true)) ∧
    (d.engine.aboutToCall = false ∨ d.calling = true → y.step.devices[i]? = some (d.turn false)) ∧
    ((∀ (j : Nat) (e : Device), j ≠ i → y.devices[j]? = some e → e.bus ≠ d.bus) →
      y.step.devices[i]? = some (d.turn false)) ∧
    (d.stop = none → ∀ t, step d.engine = .next t →
      d.turn false = { d with engine := t, calling := d.engine.callUnanswered })

/-- A fault stops the engine that raises it, for good, and no other: whatever the arbiter does, the device is marked and
keeps its state, and its later turns change no device. That a stopped engine keeps its state and takes no further step is
the model's choice, log entry 17: R99 gives the run no outcome and promises nothing afterwards. That the other devices
are not written is R23. -/
def Obligations.FaultStopsOneEngineAlone : Prop :=
  ∀ (y : System) (i : Nat) (rest : List Nat) (d : Device), y.schedule = i :: rest → y.devices[i]? = some d →
    (d.stop = none → ∀ r, step d.engine = .fault r →
      y.step.devices = y.devices.set i { d with stop := some (.fault r) }) ∧
    (d.stop ≠ none → y.step.devices = y.devices)

/-- An engine whose call is kept off the bus still meets its host in that turn (R99, R130, R132; that the turn reads one host event is
log entry 17): nothing presented, it stays where it is; a command or a reset, presented while BUSY = 1, is the overlap
fault at once. -/
def Obligations.HeldEngineStillMeetsItsHost : Prop :=
  ∀ d : Device, d.stop = none → d.calling = false → d.engine.aboutToCall = true →
    (d.engine.hostQuiet = true → d.turn true = { d with engine := { d.engine with host := d.engine.host.tail } }) ∧
    (∀ code rest, d.engine.host = .command code :: rest → d.turn true = { d with stop := some (.fault .overlap) }) ∧
    (∀ rest, d.engine.host = .reset :: rest → d.turn true = { d with stop := some (.fault .overlap) })

/-- Each engine keeps its own delay generator, and no draw is shared (R23, R122, R137): the generators stay distinct, every
engine draws from its own alone, and no settle delay of one engine is a settle delay of another. -/
def Obligations.StepKeepsTimersOwn : Prop :=
  ∀ y : System, y.TimersOwn → y.step.TimersOwn ∧
    ∀ (i j : Nat) (d e : Device), i ≠ j → y.step.devices[i]? = some d → y.step.devices[j]? = some e →
      ∀ p ∈ d.engine.drawn, p ∉ e.engine.drawn

/-- A call marked as outstanding stays one the transport has no answer for (R20 (d), U12). -/
def Obligations.StepKeepsCallsOutstanding : Prop :=
  ∀ y : System, y.CallsOutstanding → y.step.CallsOutstanding

/-- At most one running engine of a bus occupies it, at every step: a handshake from the issue of H_SEND1's call to the
return of H_SEND2's, or a call issued and not returned (R46, R75, R122, R135; the arbiter is log entry 17; of an engine
stopped by an overlap nothing is promised, R99). -/
def Obligations.StepKeepsTheBusExclusive : Prop :=
  ∀ y : System, y.BusExclusive → y.step.BusExclusive

/-- No transport call enters another engine's handshake (R46, R75, R135): while a running engine of the bus occupies it
(in its handshake, from the issue of the first write on, or with another call outstanding), or asserts `bus_hold` before
that and the other does not, the other issues no call: none is outstanding that was not, and none returns but one that
was outstanding, which has no answer. The arbiter is log entry 17. -/
def Obligations.NoCallEntersAnotherHandshake : Prop :=
  ∀ (y : System) (i j : Nat) (d e f : Device), i ≠ j → y.devices[i]? = some d → y.devices[j]? = some e →
    d.bus = e.bus → d.stop = none →
    d.occupiesBus = true ∨ (d.engine.busHold = true ∧ e.engine.busHold = false) →
    (e.calling = true → e.engine.callUnanswered = true) →
    y.step.devices[j]? = some f →
    (f.calling = true → e.calling = true) ∧ f.engine.calls.length ≤ e.engine.calls.length
end

