-- ==== Sys2Proof/Laws/State.lean ====
section
/-! SUPPORT. One lemma for each field of State and each update of it, so that no proof unfolds an update. -/

namespace Sys2Proof.Machine

variable (s : State)

@[simp] theorem State.goto_ls (q : SeqStep) : (s.goto q).ls = s.ls := rfl
@[simp] theorem State.goto_seq (q : SeqStep) : (s.goto q).seq = q := rfl
@[simp] theorem State.goto_rb (q : SeqStep) : (s.goto q).rb = s.rb := rfl
@[simp] theorem State.goto_ds (q : SeqStep) : (s.goto q).ds = s.ds := rfl
@[simp] theorem State.goto_err (q : SeqStep) : (s.goto q).err = s.err := rfl
@[simp] theorem State.goto_st (q : SeqStep) : (s.goto q).st = s.st := rfl
@[simp] theorem State.goto_host (q : SeqStep) : (s.goto q).host = s.host := rfl
@[simp] theorem State.goto_sends (q : SeqStep) : (s.goto q).sends = s.sends := rfl
@[simp] theorem State.goto_recvs (q : SeqStep) : (s.goto q).recvs = s.recvs := rfl
@[simp] theorem State.goto_timer (q : SeqStep) : (s.goto q).timer = s.timer := rfl
@[simp] theorem State.goto_draws (q : SeqStep) : (s.goto q).draws = s.draws := rfl
@[simp] theorem State.goto_trace (q : SeqStep) : (s.goto q).trace = s.trace := rfl

@[simp] theorem State.setLs_ls (l : Lifecycle) : (s.setLs l).ls = l := rfl
@[simp] theorem State.setLs_seq (l : Lifecycle) : (s.setLs l).seq = s.seq := rfl
@[simp] theorem State.setLs_rb (l : Lifecycle) : (s.setLs l).rb = s.rb := rfl
@[simp] theorem State.setLs_ds (l : Lifecycle) : (s.setLs l).ds = s.ds := rfl
@[simp] theorem State.setLs_err (l : Lifecycle) : (s.setLs l).err = s.err := rfl
@[simp] theorem State.setLs_st (l : Lifecycle) : (s.setLs l).st = s.st := rfl
@[simp] theorem State.setLs_host (l : Lifecycle) : (s.setLs l).host = s.host := rfl
@[simp] theorem State.setLs_sends (l : Lifecycle) : (s.setLs l).sends = s.sends := rfl
@[simp] theorem State.setLs_recvs (l : Lifecycle) : (s.setLs l).recvs = s.recvs := rfl
@[simp] theorem State.setLs_timer (l : Lifecycle) : (s.setLs l).timer = s.timer := rfl
@[simp] theorem State.setLs_draws (l : Lifecycle) : (s.setLs l).draws = s.draws := rfl
@[simp] theorem State.setLs_trace (l : Lifecycle) : (s.setLs l).trace = s.trace := rfl

@[simp] theorem State.setErr_ls (c : Ret) : (s.setErr c).ls = s.ls := rfl
@[simp] theorem State.setErr_seq (c : Ret) : (s.setErr c).seq = s.seq := rfl
@[simp] theorem State.setErr_rb (c : Ret) : (s.setErr c).rb = s.rb := rfl
@[simp] theorem State.setErr_ds (c : Ret) : (s.setErr c).ds = s.ds := rfl
@[simp] theorem State.setErr_err (c : Ret) : (s.setErr c).err = some c := rfl
@[simp] theorem State.setErr_st (c : Ret) : (s.setErr c).st = s.st := rfl
@[simp] theorem State.setErr_host (c : Ret) : (s.setErr c).host = s.host := rfl
@[simp] theorem State.setErr_sends (c : Ret) : (s.setErr c).sends = s.sends := rfl
@[simp] theorem State.setErr_recvs (c : Ret) : (s.setErr c).recvs = s.recvs := rfl
@[simp] theorem State.setErr_timer (c : Ret) : (s.setErr c).timer = s.timer := rfl
@[simp] theorem State.setErr_draws (c : Ret) : (s.setErr c).draws = s.draws := rfl
@[simp] theorem State.setErr_trace (c : Ret) : (s.setErr c).trace = s.trace := rfl

@[simp] theorem State.setRb_ls (r : RawResponse) : (s.setRb r).ls = s.ls := rfl
@[simp] theorem State.setRb_seq (r : RawResponse) : (s.setRb r).seq = s.seq := rfl
@[simp] theorem State.setRb_rb (r : RawResponse) : (s.setRb r).rb = some r := rfl
@[simp] theorem State.setRb_ds (r : RawResponse) : (s.setRb r).ds = s.ds := rfl
@[simp] theorem State.setRb_err (r : RawResponse) : (s.setRb r).err = s.err := rfl
@[simp] theorem State.setRb_st (r : RawResponse) : (s.setRb r).st = s.st := rfl
@[simp] theorem State.setRb_host (r : RawResponse) : (s.setRb r).host = s.host := rfl
@[simp] theorem State.setRb_sends (r : RawResponse) : (s.setRb r).sends = s.sends := rfl
@[simp] theorem State.setRb_recvs (r : RawResponse) : (s.setRb r).recvs = s.recvs := rfl
@[simp] theorem State.setRb_timer (r : RawResponse) : (s.setRb r).timer = s.timer := rfl
@[simp] theorem State.setRb_draws (r : RawResponse) : (s.setRb r).draws = s.draws := rfl
@[simp] theorem State.setRb_trace (r : RawResponse) : (s.setRb r).trace = s.trace := rfl

@[simp] theorem State.setDs_ls (d : DecodedState) : (s.setDs d).ls = s.ls := rfl
@[simp] theorem State.setDs_seq (d : DecodedState) : (s.setDs d).seq = s.seq := rfl
@[simp] theorem State.setDs_rb (d : DecodedState) : (s.setDs d).rb = s.rb := rfl
@[simp] theorem State.setDs_ds (d : DecodedState) : (s.setDs d).ds = some d := rfl
@[simp] theorem State.setDs_err (d : DecodedState) : (s.setDs d).err = s.err := rfl
@[simp] theorem State.setDs_st (d : DecodedState) : (s.setDs d).st = s.st := rfl
@[simp] theorem State.setDs_host (d : DecodedState) : (s.setDs d).host = s.host := rfl
@[simp] theorem State.setDs_sends (d : DecodedState) : (s.setDs d).sends = s.sends := rfl
@[simp] theorem State.setDs_recvs (d : DecodedState) : (s.setDs d).recvs = s.recvs := rfl
@[simp] theorem State.setDs_timer (d : DecodedState) : (s.setDs d).timer = s.timer := rfl
@[simp] theorem State.setDs_draws (d : DecodedState) : (s.setDs d).draws = s.draws := rfl
@[simp] theorem State.setDs_trace (d : DecodedState) : (s.setDs d).trace = s.trace := rfl

@[simp] theorem State.setHost_ls (h : List HostEvent) : (s.setHost h).ls = s.ls := rfl
@[simp] theorem State.setHost_seq (h : List HostEvent) : (s.setHost h).seq = s.seq := rfl
@[simp] theorem State.setHost_rb (h : List HostEvent) : (s.setHost h).rb = s.rb := rfl
@[simp] theorem State.setHost_ds (h : List HostEvent) : (s.setHost h).ds = s.ds := rfl
@[simp] theorem State.setHost_err (h : List HostEvent) : (s.setHost h).err = s.err := rfl
@[simp] theorem State.setHost_st (h : List HostEvent) : (s.setHost h).st = s.st := rfl
@[simp] theorem State.setHost_host (h : List HostEvent) : (s.setHost h).host = h := rfl
@[simp] theorem State.setHost_sends (h : List HostEvent) : (s.setHost h).sends = s.sends := rfl
@[simp] theorem State.setHost_recvs (h : List HostEvent) : (s.setHost h).recvs = s.recvs := rfl
@[simp] theorem State.setHost_timer (h : List HostEvent) : (s.setHost h).timer = s.timer := rfl
@[simp] theorem State.setHost_draws (h : List HostEvent) : (s.setHost h).draws = s.draws := rfl
@[simp] theorem State.setHost_trace (h : List HostEvent) : (s.setHost h).trace = s.trace := rfl

@[simp] theorem State.setSends_ls (l : List Ret) : (s.setSends l).ls = s.ls := rfl
@[simp] theorem State.setSends_seq (l : List Ret) : (s.setSends l).seq = s.seq := rfl
@[simp] theorem State.setSends_rb (l : List Ret) : (s.setSends l).rb = s.rb := rfl
@[simp] theorem State.setSends_ds (l : List Ret) : (s.setSends l).ds = s.ds := rfl
@[simp] theorem State.setSends_err (l : List Ret) : (s.setSends l).err = s.err := rfl
@[simp] theorem State.setSends_st (l : List Ret) : (s.setSends l).st = s.st := rfl
@[simp] theorem State.setSends_host (l : List Ret) : (s.setSends l).host = s.host := rfl
@[simp] theorem State.setSends_sends (l : List Ret) : (s.setSends l).sends = l := rfl
@[simp] theorem State.setSends_recvs (l : List Ret) : (s.setSends l).recvs = s.recvs := rfl
@[simp] theorem State.setSends_timer (l : List Ret) : (s.setSends l).timer = s.timer := rfl
@[simp] theorem State.setSends_draws (l : List Ret) : (s.setSends l).draws = s.draws := rfl
@[simp] theorem State.setSends_trace (l : List Ret) : (s.setSends l).trace = s.trace := rfl

@[simp] theorem State.setRecvs_ls (l : List RecvAnswer) : (s.setRecvs l).ls = s.ls := rfl
@[simp] theorem State.setRecvs_seq (l : List RecvAnswer) : (s.setRecvs l).seq = s.seq := rfl
@[simp] theorem State.setRecvs_rb (l : List RecvAnswer) : (s.setRecvs l).rb = s.rb := rfl
@[simp] theorem State.setRecvs_ds (l : List RecvAnswer) : (s.setRecvs l).ds = s.ds := rfl
@[simp] theorem State.setRecvs_err (l : List RecvAnswer) : (s.setRecvs l).err = s.err := rfl
@[simp] theorem State.setRecvs_st (l : List RecvAnswer) : (s.setRecvs l).st = s.st := rfl
@[simp] theorem State.setRecvs_host (l : List RecvAnswer) : (s.setRecvs l).host = s.host := rfl
@[simp] theorem State.setRecvs_sends (l : List RecvAnswer) : (s.setRecvs l).sends = s.sends := rfl
@[simp] theorem State.setRecvs_recvs (l : List RecvAnswer) : (s.setRecvs l).recvs = l := rfl
@[simp] theorem State.setRecvs_timer (l : List RecvAnswer) : (s.setRecvs l).timer = s.timer := rfl
@[simp] theorem State.setRecvs_draws (l : List RecvAnswer) : (s.setRecvs l).draws = s.draws := rfl
@[simp] theorem State.setRecvs_trace (l : List RecvAnswer) : (s.setRecvs l).trace = s.trace := rfl

@[simp] theorem State.emit_ls (e : Event) : (s.emit e).ls = s.ls := rfl
@[simp] theorem State.emit_seq (e : Event) : (s.emit e).seq = s.seq := rfl
@[simp] theorem State.emit_rb (e : Event) : (s.emit e).rb = s.rb := rfl
@[simp] theorem State.emit_ds (e : Event) : (s.emit e).ds = s.ds := rfl
@[simp] theorem State.emit_err (e : Event) : (s.emit e).err = s.err := rfl
@[simp] theorem State.emit_st (e : Event) : (s.emit e).st = s.st := rfl
@[simp] theorem State.emit_host (e : Event) : (s.emit e).host = s.host := rfl
@[simp] theorem State.emit_sends (e : Event) : (s.emit e).sends = s.sends := rfl
@[simp] theorem State.emit_recvs (e : Event) : (s.emit e).recvs = s.recvs := rfl
@[simp] theorem State.emit_timer (e : Event) : (s.emit e).timer = s.timer := rfl
@[simp] theorem State.emit_draws (e : Event) : (s.emit e).draws = s.draws := rfl
@[simp] theorem State.emit_trace (e : Event) : (s.emit e).trace = s.trace ++ [e] := rfl

@[simp] theorem State.sleep_ls : s.sleep.ls = s.ls := rfl
@[simp] theorem State.sleep_seq : s.sleep.seq = s.seq := rfl
@[simp] theorem State.sleep_rb : s.sleep.rb = s.rb := rfl
@[simp] theorem State.sleep_ds : s.sleep.ds = s.ds := rfl
@[simp] theorem State.sleep_err : s.sleep.err = s.err := rfl
@[simp] theorem State.sleep_st : s.sleep.st = s.st := rfl
@[simp] theorem State.sleep_host : s.sleep.host = s.host := rfl
@[simp] theorem State.sleep_sends : s.sleep.sends = s.sends := rfl
@[simp] theorem State.sleep_recvs : s.sleep.recvs = s.recvs := rfl
@[simp] theorem State.sleep_timer : s.sleep.timer = s.timer := rfl
@[simp] theorem State.sleep_draws : s.sleep.draws = s.draws + 1 := rfl
@[simp] theorem State.sleep_trace : s.sleep.trace = s.trace ++ [.delay (.sleep s.timer s.draws)] := rfl

@[simp] theorem State.busyWait_ls : s.busyWait.ls = s.ls := rfl
@[simp] theorem State.busyWait_seq : s.busyWait.seq = s.seq := rfl
@[simp] theorem State.busyWait_rb : s.busyWait.rb = s.rb := rfl
@[simp] theorem State.busyWait_ds : s.busyWait.ds = s.ds := rfl
@[simp] theorem State.busyWait_err : s.busyWait.err = s.err := rfl
@[simp] theorem State.busyWait_st : s.busyWait.st = s.st := rfl
@[simp] theorem State.busyWait_host : s.busyWait.host = s.host := rfl
@[simp] theorem State.busyWait_sends : s.busyWait.sends = s.sends := rfl
@[simp] theorem State.busyWait_recvs : s.busyWait.recvs = s.recvs := rfl
@[simp] theorem State.busyWait_timer : s.busyWait.timer = s.timer := rfl
@[simp] theorem State.busyWait_draws : s.busyWait.draws = s.draws := rfl
@[simp] theorem State.busyWait_trace : s.busyWait.trace = s.trace ++ [.delay (.busyWait Config.initGapUs)] := rfl

@[simp] theorem State.complete_ls (c : Completion) : (s.complete c).ls = s.ls := rfl
@[simp] theorem State.complete_seq (c : Completion) : (s.complete c).seq = .idle := rfl
@[simp] theorem State.complete_rb (c : Completion) : (s.complete c).rb = none := rfl
@[simp] theorem State.complete_ds (c : Completion) : (s.complete c).ds = none := rfl
@[simp] theorem State.complete_err (c : Completion) : (s.complete c).err = none := rfl
@[simp] theorem State.complete_st (c : Completion) : (s.complete c).st = c.status := rfl
@[simp] theorem State.complete_host (c : Completion) : (s.complete c).host = s.host := rfl
@[simp] theorem State.complete_sends (c : Completion) : (s.complete c).sends = s.sends := rfl
@[simp] theorem State.complete_recvs (c : Completion) : (s.complete c).recvs = s.recvs := rfl
@[simp] theorem State.complete_timer (c : Completion) : (s.complete c).timer = s.timer := rfl
@[simp] theorem State.complete_draws (c : Completion) : (s.complete c).draws = s.draws := rfl
@[simp] theorem State.complete_trace (c : Completion) : (s.complete c).trace = s.trace ++ [.done c] := rfl

@[simp] theorem State.renewed_ls : s.renewed.ls = .uninitialized := rfl
@[simp] theorem State.renewed_seq : s.renewed.seq = .idle := rfl
@[simp] theorem State.renewed_rb : s.renewed.rb = none := rfl
@[simp] theorem State.renewed_ds : s.renewed.ds = none := rfl
@[simp] theorem State.renewed_err : s.renewed.err = none := rfl
@[simp] theorem State.renewed_st : s.renewed.st = .none := rfl
@[simp] theorem State.renewed_host : s.renewed.host = s.host := rfl
@[simp] theorem State.renewed_sends : s.renewed.sends = s.sends := rfl
@[simp] theorem State.renewed_recvs : s.renewed.recvs = s.recvs := rfl
@[simp] theorem State.renewed_timer : s.renewed.timer = s.timer := rfl
@[simp] theorem State.renewed_draws : s.renewed.draws = s.draws := rfl
@[simp] theorem State.renewed_trace : s.renewed.trace = [] := rfl

end Sys2Proof.Machine
end

