-- ==== Sys2Proof/Laws/Ops.lean ====
section
/-! SUPPORT. What each shared operation can do, said once: later proofs cite these and do not unfold the operations. -/

namespace Sys2Proof.Machine

/-- `E_IO` is negative whatever its free bits are (D9). -/
theorem eIO_negative : Config.eIO.toInt < 0 := by
  have h : Config.eIO.msb = true := by
    change (1#1 ++ Config.eIOLow : BitVec (1 + 31)).msb = true
    rw [BitVec.msb_append]
    rfl
  simp only [BitVec.toInt_eq_msb_cond, h, if_true]
  have := Config.eIO.isLt
  omega

/-- Every settle delay lies in [10 ms, 20 ms) (R67). -/
theorem settleDelay_range (k n : Nat) : 10 ≤ Config.settleDelayMs k n ∧ Config.settleDelayMs k n < 20 := by
  have h0 := Int.fract_nonneg (Config.settleDraw k n)
  have h1 := Int.fract_lt_one (Config.settleDraw k n)
  simp only [Config.settleDelayMs, Config.settleLoMs, Config.settleHiMs]
  constructor <;> linarith

/-- Two identifiers made by `distinctPair` differ. -/
theorem distinctPair_ne (base gap : Nat) (swap : Bool) :
    (Config.distinctPair base gap swap).1 ≠ (Config.distinctPair base gap swap).2 := by
  cases swap <;> simp [Config.distinctPair] <;> omega

theorem classify_match {ret : Ret} {n : Nat} (h : ret.toInt = n) : classify ret n = .ok := by
  simp [classify, h]

theorem classify_negative {ret : Ret} {n : Nat} (h : ret.toInt < 0) : classify ret n = .err ret := by
  have : ret.toInt ≠ n := by omega
  simp [classify, this, h]

theorem classify_mismatch {ret : Ret} {n : Nat} (h0 : 0 ≤ ret.toInt) (h : ret.toInt ≠ n) :
    classify ret n = .err Config.eIO := by
  simp [classify, h, Int.not_lt.mpr h0]

/-- The three cases of the validation (R35). -/
theorem classify_cases (ret : Ret) (n : Nat) :
    (ret.toInt = n ∧ classify ret n = .ok) ∨ (ret.toInt < 0 ∧ classify ret n = .err ret) ∨
    (0 ≤ ret.toInt ∧ ret.toInt ≠ n ∧ classify ret n = .err Config.eIO) := by
  by_cases h : ret.toInt = n
  · exact .inl ⟨h, classify_match h⟩
  · by_cases h0 : ret.toInt < 0
    · exact .inr (.inl ⟨h0, classify_negative h0⟩)
    · exact .inr (.inr ⟨by omega, h, classify_mismatch (by omega) h⟩)

/-- Taking a TransportError in a tick (R110). -/
@[simp] theorem raise_tick (c : Ret) (s : State) :
    raiseTransportError .tick c s = .next ((s.setErr c).goto .pDiag) := rfl

/-- Taking a TransportError in ATTACH (R111). -/
@[simp] theorem raise_attach (c : Ret) (s : State) :
    raiseTransportError .attach c s = .next (((s.setErr c).setLs .failed).complete (.attachError c)) := rfl

/-- Return from the error path of a tick (R113). -/
theorem returnFromError_some {s : State} {c : Ret} (h : s.err = some c) :
    returnFromError s = .next ((s.emit (.diag c)).complete .ok) := by simp [returnFromError, readErr, h]

/-- A call that has not returned leaves the step where it is (U12). -/
theorem sendFrame_waiting {s : State} (f : List Byte) (w : Running) (go : State → Result) (h : s.sends = []) :
    sendFrame f w go s = .next s := by simp [sendFrame, memWrite, h]

/-- A call that has returned: go on, or raise (R35). -/
theorem sendFrame_returned {s : State} {ret : Ret} {rest : List Ret} (f : List Byte) (w : Running)
    (go : State → Result) (h : s.sends = ret :: rest) :
    sendFrame f w go s =
      match classify ret f.length with
      | .ok => go ((s.setSends rest).emit (.transport (.send f ret)))
      | .err c => raiseTransportError w c ((s.setSends rest).emit (.transport (.send f ret))) := by
  cases hc : classify ret f.length <;> simp [sendFrame, memWrite, h, hc]

theorem memRead_waiting {s : State} (go : RecvAnswer → State → Result) (h : s.recvs = []) :
    memRead s go = .next s := by simp [memRead, h]

theorem memRead_returned {s : State} {a : RecvAnswer} {rest : List RecvAnswer} (go : RecvAnswer → State → Result)
    (h : s.recvs = a :: rest) :
    memRead s go = go a ((s.setRecvs rest).emit (.transport (.recv Config.nResp a))) := by simp [memRead, h]

/-- A command while BUSY has no outcome (R99). -/
theorem takeCommand_busy {s : State} (b : Bool) (start : State → Result) (h : s.seq ≠ .idle) :
    takeCommand b start s = .fault .overlap := by simp [takeCommand, State.busy, h]

/-- A command the lifecycle accepts starts (R86). -/
theorem takeCommand_accepted {s : State} (start : State → Result) (h : s.seq = .idle) :
    takeCommand true start s = start s := by simp [takeCommand, State.busy, h]

/-- A command the lifecycle does not accept is refused (R98). -/
theorem takeCommand_refused {s : State} (start : State → Result) (h : s.seq = .idle) :
    takeCommand false start s = .next (s.complete .refused) := by simp [takeCommand, State.busy, h]

theorem resetEngine_busy {s : State} (h : s.seq ≠ .idle) : resetEngine s = .fault .overlap := by
  simp [resetEngine, State.busy, h]

theorem resetEngine_idle {s : State} (h : s.seq = .idle) :
    resetEngine s = .next s.renewed := by
  simp [resetEngine, State.busy, h]

/-- A step of a pseudo-operation the sequencer is not at is passed over. -/
theorem runExpansion_skip {s : State} {q : SeqStep} {p : State → Result} {rest : List (SeqStep × (State → Result))}
    (h : s.seq ≠ q) : runExpansion ((q, p) :: rest) s = runExpansion rest s := by simp [runExpansion, h]

/-- A step of a pseudo-operation the sequencer is at is performed. -/
theorem runExpansion_at {s t : State} {q : SeqStep} {p : State → Result} {rest : List (SeqStep × (State → Result))}
    (h : s.seq = q) (hp : p s = .next t) : runExpansion ((q, p) :: rest) s = runExpansion rest t := by
  simp [runExpansion, h, hp]

end Sys2Proof.Machine
end

