-- ==== Sys2Proof/Laws/Step.lean ====
section
/-! SUPPORT. What a step can be, said once: the sequencer's step, a presented command, a reset, or waiting. -/

namespace Sys2Proof.Machine

/-- The decoder reads each step code back as the step it stands for, and IDLE as none (R60). -/
theorem atStep_eq (s : State) :
    s.atStep =
      match s.seq with
      | .idle => none
      | .hSend1 => some .hSend1
      | .hBusy => some .hBusy
      | .hSend2 => some .hSend2
      | .rWait1 => some .rWait1
      | .rTrig => some .rTrig
      | .rWait2 => some .rWait2
      | .rRecv => some .rRecv
      | .pDecode => some .pDecode
      | .pKeyC => some .pKeyC
      | .pKeyZ => some .pKeyZ
      | .pAbsX => some .pAbsX
      | .pAbsY => some .pAbsY
      | .pSync => some .pSync
      | .pDiag => some .pDiag := by
  unfold State.atStep State.stepWord
  cases s.seq <;> rfl

/-- The command codes (R52). -/
theorem presentedCommand_eq (c : BitVec 2) :
    presentedCommand c = if c = 0 then some .attach else if c = 1 then some .tick else if c = 2 then some .detach else none := by
  revert c
  decide

/-- Waiting at IDLE (R86, R142). -/
theorem sequencerStep_idle {s : State} (h : s.seq = .idle) : sequencerStep s = .next s := by
  simp [sequencerStep, atStep_eq, h]

/-- A step is one of three things, by what the host does at it. -/
theorem step_eq (s : State) :
    step s =
      match s.host with
      | [] => sequencerStep s
      | .quiet :: rest => sequencerStep (s.setHost rest)
      | .command code :: rest => commandStep code (s.setHost rest)
      | .reset :: rest => resetEngine (s.setHost rest) := rfl

end Sys2Proof.Machine
end

