-- ==== Sys2Proof/Laws/Moves.lean ====
section
/-! SUPPORT. Inversion: everything a step that answers a next state can have done, said once. Invariants are proved by
cases on these, not by unfolding the step. -/

namespace Sys2Proof.Machine

/-- The state after a send has returned `ret`. -/
abbrev State.sent (f : List Byte) (ret : Ret) (rest : List Ret) (s : State) : State :=
  (s.setSends rest).emit (.transport (.send f ret))

/-- The state after a receive has returned `a`. -/
abbrev State.received (a : RecvAnswer) (rest : List RecvAnswer) (s : State) : State :=
  (s.setRecvs rest).emit (.transport (.recv Config.nResp a))

/-- The code a failed validation records (R35). -/
abbrev failCode (ret : Ret) : Ret := if ret.toInt < 0 then ret else Config.eIO

theorem failCode_negative (ret : Ret) : (failCode ret).toInt < 0 := by
  unfold failCode
  split
  · assumption
  · exact eIO_negative

theorem classify_fail {ret : Ret} {n : Nat} (h : ret.toInt ≠ n) : classify ret n = .err (failCode ret) := by
  unfold classify failCode
  rw [if_neg h]
  split <;> rfl

/-- What the sequencer can do when no command is presented: one constructor a case. -/
inductive SeqMove (s : State) : State → Prop
  | waiting (q : s.seq = .idle) : SeqMove s s
  | pendingSend (q : s.seq = .hSend1 ∨ s.seq = .hSend2 ∨ s.seq = .rTrig) (h : s.sends = []) : SeqMove s s
  | pendingRecv (q : s.seq = .rRecv) (h : s.recvs = []) : SeqMove s s
  | send1Ok (ret : Ret) (rest : List Ret) (q : s.seq = .hSend1) (h : s.sends = ret :: rest) (c : ret.toInt = 2) :
      SeqMove s ((s.sent Config.init1Frame ret rest).goto .hBusy)
  | send1Fail (ret : Ret) (rest : List Ret) (q : s.seq = .hSend1) (h : s.sends = ret :: rest) (c : ret.toInt ≠ 2) :
      SeqMove s ((((s.sent Config.init1Frame ret rest).setErr (failCode ret)).setLs .failed).complete
        (.attachError (failCode ret)))
  | gap (q : s.seq = .hBusy) : SeqMove s (s.busyWait.goto .hSend2)
  | send2Ok (ret : Ret) (rest : List Ret) (q : s.seq = .hSend2) (h : s.sends = ret :: rest) (c : ret.toInt = 2) :
      SeqMove s (((s.sent Config.init2Frame ret rest).setLs .polling).complete .ok)
  | send2Fail (ret : Ret) (rest : List Ret) (q : s.seq = .hSend2) (h : s.sends = ret :: rest) (c : ret.toInt ≠ 2) :
      SeqMove s ((((s.sent Config.init2Frame ret rest).setErr (failCode ret)).setLs .failed).complete
        (.attachError (failCode ret)))
  | wait1 (q : s.seq = .rWait1) : SeqMove s (s.sleep.goto .rTrig)
  | trigOk (ret : Ret) (rest : List Ret) (q : s.seq = .rTrig) (h : s.sends = ret :: rest) (c : ret.toInt = 1) :
      SeqMove s ((s.sent Config.trigFrame ret rest).goto .rWait2)
  | trigFail (ret : Ret) (rest : List Ret) (q : s.seq = .rTrig) (h : s.sends = ret :: rest) (c : ret.toInt ≠ 1) :
      SeqMove s (((s.sent Config.trigFrame ret rest).setErr (failCode ret)).goto .pDiag)
  | wait2 (q : s.seq = .rWait2) : SeqMove s (s.sleep.goto .rRecv)
  | recvOk (a : RecvAnswer) (rest : List RecvAnswer) (q : s.seq = .rRecv) (h : s.recvs = a :: rest)
      (c : a.ret.toInt = 6) : SeqMove s (((s.received a rest).setRb a.data).goto .pDecode)
  | recvFail (a : RecvAnswer) (rest : List RecvAnswer) (q : s.seq = .rRecv) (h : s.recvs = a :: rest)
      (c : a.ret.toInt ≠ 6) : SeqMove s (((s.received a rest).setErr (failCode a.ret)).goto .pDiag)
  | decoded (r : RawResponse) (q : s.seq = .pDecode) (h : s.rb = some r) :
      SeqMove s ((s.setDs (decodeResponse r)).goto .pKeyC)
  | keyC (d : DecodedState) (q : s.seq = .pKeyC) (h : s.ds = some d) :
      SeqMove s ((s.emit (.sink (.reportKey .keyC d.bc))).goto .pKeyZ)
  | keyZ (d : DecodedState) (q : s.seq = .pKeyZ) (h : s.ds = some d) :
      SeqMove s ((s.emit (.sink (.reportKey .keyZ d.bz))).goto .pAbsX)
  | absX (d : DecodedState) (q : s.seq = .pAbsX) (h : s.ds = some d) :
      SeqMove s ((s.emit (.sink (.reportAbs .absX (zext d.ax)))).goto .pAbsY)
  | absY (d : DecodedState) (q : s.seq = .pAbsY) (h : s.ds = some d) :
      SeqMove s ((s.emit (.sink (.reportAbs .absY (zext d.ay)))).goto .pSync)
  | synced (q : s.seq = .pSync) : SeqMove s ((s.emit (.sink .sync)).complete .ok)
  | diagnosed (c : Ret) (q : s.seq = .pDiag) (h : s.err = some c) : SeqMove s ((s.emit (.diag c)).complete .ok)

/-- What a send step answers, with the two failing cases of the validation taken together. -/
theorem sendFrame_cases {s t : State} {f : List Byte} {w : Running} {go : State → Result}
    (h : sendFrame f w go s = .next t) :
    (s.sends = [] ∧ t = s) ∨ ∃ ret rest, s.sends = ret :: rest ∧
      ((ret.toInt = f.length ∧ go (s.sent f ret rest) = .next t) ∨
       (ret.toInt ≠ f.length ∧ raiseTransportError w (failCode ret) (s.sent f ret rest) = .next t)) := by
  cases hs : s.sends with
  | nil =>
    rw [sendFrame_waiting f w go hs] at h
    exact .inl ⟨rfl, (Host.Outcome.next.inj h).symm⟩
  | cons ret rest =>
    rw [sendFrame_returned f w go hs] at h
    refine .inr ⟨ret, rest, rfl, ?_⟩
    by_cases hc : ret.toInt = f.length
    · rw [classify_match hc] at h
      exact .inl ⟨hc, h⟩
    · rw [classify_fail hc] at h
      exact .inr ⟨hc, h⟩

/-- The inversion lemma of the sequencer. -/
theorem sequencerStep_move {s t : State} (h : sequencerStep s = .next t) : SeqMove s t := by
  unfold sequencerStep at h
  rw [atStep_eq] at h
  cases q : s.seq <;> simp only [q, exec] at h
  case idle => cases h; exact .waiting q
  case hSend1 =>
    obtain ⟨hs, rfl⟩ | ⟨ret, rest, hs, ⟨c, e⟩ | ⟨c, e⟩⟩ := sendFrame_cases h
    · exact .pendingSend (.inl q) hs
    · cases e; exact .send1Ok ret rest q hs c
    · cases e; exact .send1Fail ret rest q hs c
  case hBusy => cases h; exact .gap q
  case hSend2 =>
    obtain ⟨hs, rfl⟩ | ⟨ret, rest, hs, ⟨c, e⟩ | ⟨c, e⟩⟩ := sendFrame_cases h
    · exact .pendingSend (.inr (.inl q)) hs
    · cases e; exact .send2Ok ret rest q hs c
    · cases e; exact .send2Fail ret rest q hs c
  case rWait1 => cases h; exact .wait1 q
  case rTrig =>
    obtain ⟨hs, rfl⟩ | ⟨ret, rest, hs, ⟨c, e⟩ | ⟨c, e⟩⟩ := sendFrame_cases h
    · exact .pendingSend (.inr (.inr q)) hs
    · cases e; exact .trigOk ret rest q hs c
    · cases e; exact .trigFail ret rest q hs c
  case rWait2 => cases h; exact .wait2 q
  case rRecv =>
    unfold execRRecv at h
    cases hr : s.recvs with
    | nil => rw [memRead_waiting _ hr] at h; cases h; exact .pendingRecv q hr
    | cons a rest =>
      rw [memRead_returned _ hr, acceptResponse] at h
      by_cases hc : a.ret.toInt = 6
      · rw [classify_match (n := Config.nResp) hc] at h; cases h; exact .recvOk a rest q hr hc
      · rw [classify_fail (n := Config.nResp) hc] at h; cases h; exact .recvFail a rest q hr hc
  case pDecode =>
    unfold execPDecode readRb at h
    split at h
    · rename_i r hr; cases h; exact .decoded r q hr
    · cases h
  case pKeyC =>
    unfold execPKeyC readDs at h
    split at h
    · rename_i d hd; cases h; exact .keyC d q hd
    · cases h
  case pKeyZ =>
    unfold execPKeyZ readDs at h
    split at h
    · rename_i d hd; cases h; exact .keyZ d q hd
    · cases h
  case pAbsX =>
    unfold execPAbsX readDs at h
    split at h
    · rename_i d hd; cases h; exact .absX d q hd
    · cases h
  case pAbsY =>
    unfold execPAbsY readDs at h
    split at h
    · rename_i d hd; cases h; exact .absY d q hd
    · cases h
  case pSync => cases h; exact .synced q
  case pDiag =>
    unfold execPDiag returnFromError readErr at h
    split at h
    · rename_i c hc; cases h; exact .diagnosed c q hc
    · cases h

/-- What a presented command code can do: nothing but this, and only at IDLE. -/
inductive CommandMove (s : State) : State → Prop
  | attach (q : s.seq = .idle) (l : s.ls = .uninitialized) : CommandMove s (s.goto .hSend1)
  | tick (q : s.seq = .idle) (l : s.ls = .polling) : CommandMove s (s.goto .rWait1)
  | detach (q : s.seq = .idle) (l : s.ls = .polling) : CommandMove s ((s.setLs .stopped).complete .ok)
  | refused (q : s.seq = .idle) : CommandMove s (s.complete .refused)

/-- The inversion lemma of command acceptance (R86). -/
theorem takeCommand_cases {s t : State} {b : Bool} {start : State → Result}
    (h : takeCommand b start s = .next t) :
    s.seq = .idle ∧ ((b = true ∧ start s = .next t) ∨ (b = false ∧ t = s.complete .refused)) := by
  by_cases q : s.seq = .idle
  · refine ⟨q, ?_⟩
    cases b with
    | true => rw [takeCommand_accepted start q] at h; exact .inl ⟨rfl, h⟩
    | false => rw [takeCommand_refused start q] at h; exact .inr ⟨rfl, (Host.Outcome.next.inj h).symm⟩
  · rw [takeCommand_busy b start q] at h
    cases h

/-- The inversion lemma of a presented command; DETACH is the only one that moves LS, and its code is `10`. -/
theorem commandStep_move {s t : State} {code : BitVec 2} (h : commandStep code s = .next t) :
    CommandMove s t ∧ (t.ls ≠ s.ls → code = 2#2) := by
  unfold commandStep at h
  rw [presentedCommand_eq] at h
  by_cases c0 : code = 0
  · simp only [c0, if_true, exec, execAttach] at h
    obtain ⟨q, ⟨hb, e⟩ | ⟨_, rfl⟩⟩ := takeCommand_cases h
    · cases e
      refine ⟨.attach q (by simpa [acceptsAttach] using hb), by simp⟩
    · exact ⟨.refused q, by simp⟩
  by_cases c1 : code = 1
  · simp only [c1, exec, execTick] at h
    obtain ⟨q, ⟨hb, e⟩ | ⟨_, rfl⟩⟩ := takeCommand_cases h
    · cases e
      refine ⟨.tick q (by simpa [acceptsTick] using hb), by simp⟩
    · exact ⟨.refused q, by simp⟩
  by_cases c2 : code = 2
  · simp only [c2, exec, execDetach] at h
    obtain ⟨q, ⟨hb, e⟩ | ⟨_, rfl⟩⟩ := takeCommand_cases h
    · cases e
      refine ⟨.detach q (by simpa [acceptsDetach] using hb), fun _ => c2⟩
    · exact ⟨.refused q, by simp⟩
  · simp only [c0, c1, c2, if_false, takeReservedCommand] at h
    obtain ⟨q, ⟨hb, _⟩ | ⟨_, rfl⟩⟩ := takeCommand_cases h
    · cases hb
    · exact ⟨.refused q, by simp⟩

/-- The inversion lemma of reset (R132). -/
theorem resetEngine_cases {s t : State} (h : resetEngine s = .next t) :
    s.seq = .idle ∧
      t = s.renewed := by
  by_cases q : s.seq = .idle
  · rw [resetEngine_idle q] at h
    exact ⟨q, (Host.Outcome.next.inj h).symm⟩
  · rw [resetEngine_busy q] at h
    cases h

/-- The inversion lemma of the step. -/
theorem step_cases {s t : State} (h : step s = .next t) :
    (s.hostQuiet = true ∧ SeqMove (s.setHost s.host.tail) t) ∨
    (∃ code rest, s.host = .command code :: rest ∧ CommandMove (s.setHost rest) t ∧ (t.ls ≠ s.ls → code = 2#2)) ∨
    (∃ rest, s.host = .reset :: rest ∧ s.seq = .idle ∧
      t = (s.setHost rest).renewed) := by
  rw [step_eq] at h
  cases hh : s.host with
  | nil =>
    rw [hh] at h
    have e : s.setHost [] = s := by rw [← hh]; rfl
    exact .inl ⟨by simp [State.hostQuiet, hh], by simpa [e] using sequencerStep_move h⟩
  | cons ev rest =>
    rw [hh] at h
    cases ev with
    | quiet => exact .inl ⟨by simp [State.hostQuiet, hh], sequencerStep_move h⟩
    | command code =>
      have m := commandStep_move h
      exact .inr (.inl ⟨code, rest, rfl, m.1, m.2⟩)
    | reset =>
      obtain ⟨q, e⟩ := resetEngine_cases h
      exact .inr (.inr ⟨rest, rfl, q, e⟩)

end Sys2Proof.Machine
end

