-- ==== Sys2Proof/Laws/PerInstr.lean ====
section
/-! SUPPORT. Facts about every instruction as syntax, one lemma a constructor. -/

namespace Sys2Proof.Laws.Width

/-- The word of an instruction fits the width its format fixes (R51, R65). -/
def Statement (i : Instr) : Prop := (encode i).number < 2 ^ (encode i).format.width

theorem attach : Statement .attach := by unfold Statement; decide
theorem tick : Statement .tick := by unfold Statement; decide
theorem detach : Statement .detach := by unfold Statement; decide
theorem hSend1 : Statement .hSend1 := by unfold Statement; decide
theorem hBusy : Statement .hBusy := by unfold Statement; decide
theorem hSend2 : Statement .hSend2 := by unfold Statement; decide
theorem rWait1 : Statement .rWait1 := by unfold Statement; decide
theorem rTrig : Statement .rTrig := by unfold Statement; decide
theorem rWait2 : Statement .rWait2 := by unfold Statement; decide
theorem rRecv : Statement .rRecv := by unfold Statement; decide
theorem pDecode : Statement .pDecode := by unfold Statement; decide
theorem pKeyC : Statement .pKeyC := by unfold Statement; decide
theorem pKeyZ : Statement .pKeyZ := by unfold Statement; decide
theorem pAbsX : Statement .pAbsX := by unfold Statement; decide
theorem pAbsY : Statement .pAbsY := by unfold Statement; decide
theorem pSync : Statement .pSync := by unfold Statement; decide
theorem pDiag : Statement .pDiag := by unfold Statement; decide
theorem trig : Statement .trig := by unfold Statement; decide
theorem init1 : Statement .init1 := by unfold Statement; decide
theorem init2 : Statement .init2 := by unfold Statement; decide
theorem resp (x y a2 a3 a4 : Byte) (rsv : BitVec 6) (cn zn : BitVec 1) :
    Statement (.resp x y a2 a3 a4 rsv cn zn) :=
  (x ++ y ++ a2 ++ a3 ++ a4 ++ (rsv ++ cn ++ zn : BitVec 8)).isLt
theorem init : Statement .init := by unfold Statement; decide
theorem readState : Statement .readState := by unfold Statement; decide
theorem decode : Statement .decode := by unfold Statement; decide
theorem poll : Statement .poll := by unfold Statement; decide

end Sys2Proof.Laws.Width
end

