-- ==== Sys2Proof/Laws/Run.lean ====
section
/-! SUPPORT. Runs of several steps, one step at a time. -/

namespace Sys2Proof.Machine

@[simp] theorem runSteps_zero (s : State) : runSteps 0 s = .next s := rfl

/-- A step that answers a next state is followed by the rest of the run; for any machine of the host's interface. -/
theorem core_run_next (M : Host.Core) (k : Nat) (s t : M.State) (h : M.step s = .next t) :
    M.run (k + 1) s = M.run k t := by
  rw [Host.Core.run, h]

/-- A fault ends the run; for any machine of the host's interface. -/
theorem core_run_fault (M : Host.Core) (k : Nat) (s : M.State) (r : M.Fault) (h : M.step s = .fault r) :
    M.run (k + 1) s = .fault r := by
  rw [Host.Core.run, h]

/-- A refusal ends the run; for any machine of the host's interface. -/
theorem core_run_refused (M : Host.Core) (k : Nat) (s : M.State) (r : M.Refusal) (h : M.step s = .refused r) :
    M.run (k + 1) s = .refused r := by
  rw [Host.Core.run, h]

/-- A run takes its first step and goes on from there, or stops where the step stops. -/
theorem runSteps_succ (k : Nat) (s : State) :
    runSteps (k + 1) s =
      match step s with
      | .next t => runSteps k t
      | .fault r => .fault r
      | .refused r => .refused r := by
  cases h : step s with
  | next t => exact core_run_next core k s t h
  | fault r => exact core_run_fault core k s r h
  | refused r => exact core_run_refused core k s r h

/-- The step that answers a next state is followed by the rest of the run. -/
theorem runSteps_next {k : Nat} {s t : State} (h : step s = .next t) : runSteps (k + 1) s = runSteps k t := by
  rw [runSteps_succ, h]

/-- A run at IDLE with nothing presented stays there (R86, R142). -/
theorem runSteps_idle {s : State} (q : s.seq = .idle) (h : s.host = []) (k : Nat) : runSteps k s = .next s := by
  induction k with
  | zero => rfl
  | succ k ih =>
    have e : step s = .next s := by rw [step_eq, h]; exact sequencerStep_idle q
    rw [runSteps_next e, ih]

end Sys2Proof.Machine
end

