-- ==== Sys2Proof/Laws/System.lean ====
section
/-! SUPPORT. What one turn of a system of engines can do, said once: to the engine that takes it, to its device, and to
the devices as a whole. -/

namespace Sys2Proof.Machine

/-- A step never changes which delay generator is the engine's own (R123). -/
theorem step_timer {s t : State} (h : step s = .next t) : t.timer = s.timer := by
  obtain ⟨_, m⟩ | ⟨_, rest, _, m, _⟩ | ⟨_, _, _, rfl⟩ := step_cases h
  · rw [← State.setHost_timer s s.host.tail]
    generalize s.setHost s.host.tail = u at m
    cases m <;> rfl
  · rw [← State.setHost_timer s rest]
    generalize s.setHost rest = u at m
    cases m <;> rfl
  · rfl

/-- An engine that has its turn waits for the bus, with its host quiet and a call to make, or takes its step. -/
theorem State.turn_cases (held : Bool) (s : State) :
    (held = true ∧ s.aboutToCall = true ∧ s.hostQuiet = true ∧ s.turn held = .next (s.setHost s.host.tail)) ∨
    (s.turn held = step s ∧ (held = true → s.aboutToCall = true → s.hostQuiet = false)) := by
  unfold State.turn
  by_cases c : s.aboutToCall && held
  · rw [if_pos c]
    simp only [Bool.and_eq_true] at c
    unfold waitForBus State.hostQuiet
    cases h : s.host with
    | nil =>
      have e : s.setHost [] = s := by rw [← h]; rfl
      exact .inl ⟨c.2, c.1, rfl, by simp [e]⟩
    | cons e rest => cases e with
      | quiet => exact .inl ⟨c.2, c.1, rfl, rfl⟩
      | command code => exact .inr ⟨rfl, fun _ _ => rfl⟩
      | reset => exact .inr ⟨rfl, fun _ _ => rfl⟩
  · rw [if_neg c]
    exact .inr ⟨rfl, fun h a => absurd (by simp [h, a]) c⟩

/-- An engine that is not kept off takes its step. -/
@[simp] theorem State.turn_free (s : State) : s.turn false = step s := by simp [State.turn]

/-- An engine with no call to make takes its step, whatever the arbiter says. -/
theorem State.turn_no_call {s : State} (h : s.aboutToCall = false) (held : Bool) : s.turn held = step s := by
  simp [State.turn, h]

/-- A device that has stopped does nothing with its turn. -/
theorem Device.turn_stopped {d : Device} (h : d.stop ≠ none) (held : Bool) : d.turn held = d := by
  unfold Device.turn
  cases hs : d.stop with
  | none => exact absurd hs h
  | some _ => rfl

/-- A running device goes where its engine goes; a call it makes and that has no answer is then outstanding. -/
theorem Device.turn_next {d : Device} {held : Bool} {t : State} (h : d.stop = none) (ht : d.engine.turn held = .next t) :
    d.turn held = { d with engine := t, calling := d.engine.callUnanswered && (d.calling || !held) } := by
  simp [Device.turn, h, ht]

/-- A running device stops where its engine faults. -/
theorem Device.turn_fault {d : Device} {held : Bool} {r : Fault} (h : d.stop = none)
    (ht : d.engine.turn held = .fault r) : d.turn held = { d with stop := some (.fault r) } := by
  simp [Device.turn, h, ht]

/-- After its turn a device has the engine and the mark it had, or ran and has the engine its turn answers; its bus
stays. -/
theorem Device.turn_cases (held : Bool) (d : Device) :
    (d.turn held).bus = d.bus ∧
      ((d.turn held).engine = d.engine ∧ (d.turn held).calling = d.calling ∧
          ((d.turn held).stop = none → d.stop = none) ∨
       ∃ t, d.stop = none ∧ d.engine.turn held = .next t ∧
         d.turn held = { d with engine := t, calling := d.engine.callUnanswered && (d.calling || !held) }) := by
  by_cases h : d.stop = none
  · cases ht : d.engine.turn held with
    | next t => exact ⟨by rw [Device.turn_next h ht], .inr ⟨t, h, rfl, Device.turn_next h ht⟩⟩
    | fault r => simp [Device.turn, h, ht]
    | refused q => simp [Device.turn, h, ht]
  · rw [Device.turn_stopped h]
    exact ⟨rfl, .inl ⟨rfl, rfl, id⟩⟩

/-- One device at most changes in a turn, by its own turn. -/
theorem System.step_device (y : System) :
    ∃ k : Nat, ∀ (j : Nat) (f : Device), y.step.devices[j]? = some f → y.devices[j]? = some f ∨
      (j = k ∧ ∃ d, y.devices[j]? = some d ∧ f = d.turn (y.heldOff j)) := by
  unfold System.step
  split
  · exact ⟨0, fun j f h => .inl h⟩
  · rename_i i rest _
    refine ⟨i, fun j f h => ?_⟩
    split at h
    · exact .inl h
    · rename_i d hd
      simp only [List.getElem?_set] at h
      split at h
      · rename_i e
        subst e
        split at h
        · exact .inr ⟨rfl, d, hd, (Option.some.inj h).symm⟩
        · cases h
      · exact .inl h

/-- The scheduled device has its turn. -/
theorem System.step_scheduled {y : System} {i : Nat} {rest : List Nat} {d : Device} (h : y.schedule = i :: rest)
    (hd : y.devices[i]? = some d) : y.step.devices = y.devices.set i (d.turn (y.heldOff i)) := by
  simp [System.step, h, hd]

/-- One device that keeps it off is enough. -/
theorem System.heldOff_of_keepsOff {y : System} {i j : Nat} {e : Device} (he : y.devices[j]? = some e)
    (h : y.keepsOff i j = true) : y.heldOff i = true :=
  List.any_eq_true.mpr ⟨j, List.mem_range.mpr (List.getElem?_eq_some_iff.mp he).1, h⟩

/-- A device with no other on its bus is never kept off. -/
theorem System.heldOff_alone {y : System} {i : Nat} {d : Device} (hd : y.devices[i]? = some d)
    (alone : ∀ (j : Nat) (e : Device), j ≠ i → y.devices[j]? = some e → e.bus ≠ d.bus) : y.heldOff i = false := by
  unfold System.heldOff
  rw [List.any_eq_false]
  intro j _ h
  unfold System.keepsOff at h
  rw [hd] at h
  split at h
  · rename_i e' _ he hj
    cases he
    simp only [Bool.and_eq_true, bne_iff_ne, beq_iff_eq] at h
    exact alone j _ h.1.1.2 hj h.1.2
  · cases h

/-- A call already issued is never kept off. -/
theorem System.heldOff_calling {y : System} {i : Nat} {d : Device} (hd : y.devices[i]? = some d)
    (h : d.calling = true) : y.heldOff i = false := by
  unfold System.heldOff
  rw [List.any_eq_false]
  intro j _ hk
  unfold System.keepsOff at hk
  rw [hd] at hk
  split at hk
  · rename_i he _
    cases he
    simp [h] at hk
  · cases hk

/-- The one way a call enters the bus: the device issues it in its turn, and no running device of its bus occupies it. -/
theorem System.keepsOff_occupied {y : System} {i j : Nat} {d e : Device} (hd : y.devices[i]? = some d)
    (he : y.devices[j]? = some e) (n : j ≠ i) (hb : e.bus = d.bus) (hs : e.stop = none) (hc : d.calling = false)
    (ho : e.occupiesBus = true) : y.heldOff i = true :=
  System.heldOff_of_keepsOff he (by simp [System.keepsOff, hd, he, n, hb, hs, hc, ho])

/-- Only an engine about to call has a call without an answer. -/
theorem State.aboutToCall_of_unanswered {s : State} (h : s.callUnanswered = true) : s.aboutToCall = true := by
  unfold State.callUnanswered at h
  unfold State.aboutToCall
  simp only [Bool.or_eq_true, Bool.and_eq_true] at h ⊢
  tauto

/-- A call without an answer leaves its step, and all but the host's event, where they are (U12). -/
theorem step_unanswered {s t : State} (h : s.callUnanswered = true) (ht : step s = .next t) :
    t = s.setHost s.host.tail := by
  have hb := State.aboutToCall_of_unanswered h
  unfold State.callUnanswered at h
  unfold State.aboutToCall at hb
  obtain ⟨_, m⟩ | ⟨_, rest, _, m, _⟩ | ⟨_, _, q, _⟩ := step_cases ht
  · have h' : (((s.setHost s.host.tail).seq == .hSend1 || (s.setHost s.host.tail).seq == .hSend2 ||
        (s.setHost s.host.tail).seq == .rTrig) && (s.setHost s.host.tail).sends.isEmpty ||
        (s.setHost s.host.tail).seq == .rRecv && (s.setHost s.host.tail).recvs.isEmpty) = true := h
    generalize s.setHost s.host.tail = u at m h'
    cases m <;> first | rfl | simp_all
  · have q : s.seq = .idle := by cases m <;> assumption
    simp [q] at hb
  · simp [q] at hb

end Sys2Proof.Machine
end

