-- ==== Sys2Proof/Tests/Slice0.lean ====
section
/-! SUPPORT. Tests with results taken from spec/95_test_vectors.md (its ids S, V, K, P, H, T, L are named) and from the
encoding tables of spec/30_encoding.md, and for every statement that has hypotheses a witness that meets them. -/

namespace Sys2Proof.Tests

open Sys2Proof Sys2Proof.Machine

/-- The next state, if there is one. -/
def next? : Host.Outcome State Fault Refusal → Option State
  | .next s => some s
  | _ => none

/-- The fault, if there is one. -/
def fault? : Host.Outcome State Fault Refusal → Option Fault
  | .fault r => some r
  | _ => none

/-- One field of the state an instruction leaves. -/
def after {α : Type} (i : Instr) (s : State) (get : State → α) : Option α := (next? (exec i s)).map get

/-- An engine with a lifecycle state and a step, all else as after reset. -/
def eng (l : Lifecycle) (q : SeqStep) : State := { State.reset with ls := l, seq := q }

/-- The same with the answers to the sends to come. -/
def engS (l : Lifecycle) (q : SeqStep) (a : List Ret) : State := { eng l q with sends := a }

/-- A receive answer with six bytes. -/
def ans (ret : Ret) (b0 b1 b2 b3 b4 b5 : Byte) : RecvAnswer := ⟨ret, ⟨b0, b1, b2, b3, b4, b5⟩, []⟩

/-- Polling at a step, with the answers to come. -/
def engR (q : SeqStep) (a : List Ret) (b : List RecvAnswer) : State :=
  { eng .polling q with sends := a, recvs := b }

/-! ## Well-formedness: one ill-formed word for each check -/

-- R63: command code 11
theorem test_wf_refuses_cmd_11 : (Encoded.cmd 0b11#2).wellFormed = false := by decide
-- R53: a one-byte frame that is not TRIG
theorem test_wf_refuses_other_w1 : (Encoded.w1 0x01#8).wellFormed = false := by decide
-- R54: the bytes of INIT1 in the wrong order, and a mixture of the two frames
theorem test_wf_refuses_other_w2 :
    (Encoded.w2 0x55#8 0xF0#8).wellFormed = false ∧ (Encoded.w2 0xF0#8 0x00#8).wellFormed = false ∧
    (Encoded.w2 0xFB#8 0x55#8).wellFormed = false := by decide
-- R60, R63: the code of IDLE and the reserved code
theorem test_wf_refuses_uop :
    (Encoded.uop 0b0000#4).wellFormed = false ∧ (Encoded.uop 0b1111#4).wellFormed = false := by decide
-- R62: there is no illegal response
theorem test_wf_accepts_any_response :
    (Encoded.r6 ⟨0xFF#8, 0xFF#8, 0xAA#8, 0x55#8, 0xFF#8, 0xFD#8⟩).wellFormed = true := by decide

/-! ## Decoding, from the tables of R52 to R55, R60 and R63 -/

theorem test_decode_commands :
    decode (.cmd 0b00#2) = .ok .attach ∧ decode (.cmd 0b01#2) = .ok .tick ∧ decode (.cmd 0b10#2) = .ok .detach ∧
    decode (.cmd 0b11#2) = .error .reservedCommand := ⟨rfl, rfl, rfl, rfl⟩

theorem test_decode_handshake_steps :
    decode (.uop 0b0001#4) = .ok .hSend1 ∧ decode (.uop 0b0010#4) = .ok .hBusy ∧
    decode (.uop 0b0011#4) = .ok .hSend2 := ⟨rfl, rfl, rfl⟩

theorem test_decode_read_steps :
    decode (.uop 0b0100#4) = .ok .rWait1 ∧ decode (.uop 0b0101#4) = .ok .rTrig ∧
    decode (.uop 0b0110#4) = .ok .rWait2 ∧ decode (.uop 0b0111#4) = .ok .rRecv := ⟨rfl, rfl, rfl, rfl⟩

theorem test_decode_poll_steps :
    decode (.uop 0b1000#4) = .ok .pDecode ∧ decode (.uop 0b1001#4) = .ok .pKeyC ∧
    decode (.uop 0b1010#4) = .ok .pKeyZ ∧ decode (.uop 0b1011#4) = .ok .pAbsX ∧
    decode (.uop 0b1100#4) = .ok .pAbsY ∧ decode (.uop 0b1101#4) = .ok .pSync ∧
    decode (.uop 0b1110#4) = .ok .pDiag := ⟨rfl, rfl, rfl, rfl, rfl, rfl, rfl⟩

theorem test_decode_no_step :
    decode (.uop 0b0000#4) = .error .idleIsNoStep ∧ decode (.uop 0b1111#4) = .error .reservedStep := ⟨rfl, rfl⟩

theorem test_decode_frames :
    decode (.w1 0b00000000#8) = .ok .trig ∧ decode (.w2 0b11110000#8 0b01010101#8) = .ok .init1 ∧
    decode (.w2 0b11111011#8 0b00000000#8) = .ok .init2 := ⟨rfl, rfl, rfl⟩

-- R55: byte 5 is rrrrrrcz; V8's 0xFD has c = 0, z = 1
theorem test_decode_resp :
    decode (.r6 ⟨0b11011100#8, 0b11001000#8, 0b10101010#8, 0b01010101#8, 0b11111111#8, 0b11111101#8⟩)
      = .ok (.resp 220#8 200#8 0xAA#8 0x55#8 0xFF#8 0b111111#6 0#1 1#1) := rfl

theorem test_decode_ops :
    decode (.op .init) = .ok .init ∧ decode (.op .readState) = .ok .readState ∧ decode (.op .decode) = .ok .decode ∧
    decode (.op .poll) = .ok .poll := ⟨rfl, rfl, rfl, rfl⟩

-- 95 part 3: INIT1 = 1111000001010101, INIT2 = 1111101100000000; V5 is 80 7F 01 02 03 01
theorem test_table_words :
    decodeTableWord 16 0b1111000001010101 = some .init1 ∧ decodeTableWord 16 0b1111101100000000 = some .init2 ∧
    decodeTableWord 8 0 = some .trig ∧ decodeTableWord 2 0b10 = some .detach ∧ decodeTableWord 4 0b0111 = some .rRecv ∧
    decodeTableWord 48 0x807F01020301 = some (.resp 0x80#8 0x7F#8 1#8 2#8 3#8 0#6 0#1 1#1) ∧
    decodeTableWord 16 0b0101010111110000 = none ∧ decodeTableWord 4 0b1111 = none := by decide

theorem test_bytes_rejected_by_name :
    decodeBytes .cmd [0x04#8] = .error .paddingSet ∧ decodeBytes .w2 [0xF0#8] = .error .wrongLength ∧
    decodeBytes .op [] = .error .noBinaryForm ∧ decodeBytes .r6 [1#8, 2#8, 3#8, 4#8, 5#8] = .error .wrongLength := ⟨rfl, rfl, rfl, rfl⟩

/-! ## Validation: K3, K8, K13, K15, K16 -/

theorem test_classify :
    classify 2 1 = .err Config.eIO ∧ classify 3 2 = .err Config.eIO ∧ classify 7 6 = .err Config.eIO ∧
    classify (-1) 1 = .err (-1) ∧ classify 0x80000000#32 6 = .err 0x80000000#32 := ⟨rfl, rfl, rfl, rfl, rfl⟩

/-! ## Commands -/

-- L3, L5
theorem test_attach :
    after .attach (eng .uninitialized .idle) (·.seq) = some .hSend1 ∧
    after .attach (eng .polling .idle) (fun t => (t.ls, t.st, t.trace)) = some (.polling, .refused, [.done .refused]) := by
  decide

-- L6, L1
theorem test_tick :
    after .tick (eng .polling .idle) (·.seq) = some .rWait1 ∧
    after .tick (eng .uninitialized .idle) (fun t => (t.ls, t.st)) = some (.uninitialized, .refused) := by decide

-- L7, L8
theorem test_detach :
    after .detach (eng .polling .idle) (fun t => (t.ls, t.st, t.trace)) = some (.stopped, .ok, [.done .ok]) ∧
    after .detach (eng .stopped .idle) (fun t => (t.ls, t.st)) = some (.stopped, .refused) := by decide

-- L10, L11
theorem test_reserved_and_overlap :
    (next? (step { eng .failed .idle with host := [.command 0b11#2] })).map (fun t => (t.ls, t.st))
      = some (.failed, .refused) ∧
    fault? (step { eng .polling .rWait1 with host := [.command 0b11#2] }) = some .overlap ∧
    fault? (exec .tick (eng .polling .pSync)) = some .overlap := by decide

/-! ## The Initialization Handshake -/

-- H1; H5
theorem test_hSend1 :
    after .hSend1 (engS .uninitialized .hSend1 [2, 2]) (fun t => (t.seq, t.sends, t.trace))
      = some (.hBusy, [2], [.transport (.send [0xF0#8, 0x55#8] 2)]) ∧
    after .hSend1 (engS .uninitialized .hSend1 [-6]) (fun t => (t.ls, t.seq, t.st, t.err))
      = some (.failed, .idle, .attachError, none) := by decide

theorem test_hBusy :
    after .hBusy (eng .uninitialized .hBusy) (fun t => (t.seq, t.trace))
      = some (.hSend2, [.delay (.busyWait 1000)]) := by decide

-- H1; H3
theorem test_hSend2 :
    after .hSend2 (engS .uninitialized .hSend2 [2]) (fun t => (t.ls, t.st, t.trace))
      = some (.polling, .ok, [.transport (.send [0xFB#8, 0x00#8] 2), .done .ok]) ∧
    after .hSend2 (engS .uninitialized .hSend2 [-6]) (fun t => (t.ls, t.trace))
      = some (.failed, [.transport (.send [0xFB#8, 0x00#8] (-6)), .done (.attachError (-6))]) := by decide

theorem test_init_frames :
    after .init1 (engS .uninitialized .hSend1 [2]) (·.trace) = some [.transport (.send [0xF0#8, 0x55#8] 2)] ∧
    after .init2 (engS .uninitialized .hSend2 [2]) (·.ls) = some .polling := by decide

-- H2: the generic code is the payload
theorem test_init :
    after .init (engS .uninitialized .hSend1 [2, 1]) (fun t => (t.ls, t.trace))
      = some (.failed, [.transport (.send [0xF0#8, 0x55#8] 2), .delay (.busyWait 1000),
          .transport (.send [0xFB#8, 0x00#8] 1), .done (.attachError Config.eIO)]) := rfl

/-! ## The Register Protocol -/

theorem test_rWait1 :
    after .rWait1 (eng .polling .rWait1) (fun t => (t.seq, t.trace)) = some (.rTrig, [.delay (.sleep 0 0)]) := by decide

-- K1; S3: ERR = E_IO, SEQ = P_DIAG, the transport trace is the send alone
theorem test_rTrig : after .rTrig (engS .polling .rTrig [1]) (·.seq) = some .rWait2 := by decide

theorem test_rTrig_mismatch :
    after .rTrig (engS .polling .rTrig [0]) (fun t => (t.err, t.seq, t.calls))
      = some (some Config.eIO, .pDiag, [.send [0x00#8] 0]) := rfl

theorem test_rWait2 :
    after .rWait2 (eng .polling .rWait2) (fun t => (t.seq, t.draws)) = some (.rRecv, 1) := by decide

-- K10, P1; P4
theorem test_rRecv :
    after .rRecv (engR .rRecv [] [ans 6 100 150 0 0 0 0]) (fun t => (t.rb, t.seq))
      = some (some ⟨100, 150, 0, 0, 0, 0⟩, .pDecode) := by decide

theorem test_rRecv_short :
    after .rRecv (engR .rRecv [] [ans 5 1 2 3 4 5 0]) (fun t => (t.rb, t.err, t.seq))
      = some (none, some Config.eIO, .pDiag) := rfl

-- P5
theorem test_readState :
    after .readState (engR .rWait1 [1] [ans (-110) 0 0 0 0 0 0]) (fun t => (t.rb, t.err, t.seq))
      = some (none, some (-110), .pDiag) := by decide

theorem test_trig :
    after .trig (engS .polling .rTrig [-6]) (fun t => (t.err, t.seq)) = some (some (-6), .pDiag) := by decide

-- V8 as a frame: DC C8 AA 55 FF FD
theorem test_resp :
    after (.resp 0xDC 0xC8 0xAA 0x55 0xFF 0b111111 0 1) (eng .polling .rRecv) (fun t => (t.rb, t.seq))
      = some (some ⟨0xDC, 0xC8, 0xAA, 0x55, 0xFF, 0xFD⟩, .pDecode) := by decide

/-! ## The Decoder: V1 to V12 -/

theorem test_decoder_examples :
    decodeResponse ⟨100, 150, 0, 0, 0, 0b00000000⟩ = ⟨100, 150, true, true⟩ ∧
    decodeResponse ⟨30, 220, 0, 0, 0, 0b00000011⟩ = ⟨30, 220, false, false⟩ := by decide

theorem test_decoder_vectors :
    decodeResponse ⟨0, 0, 0, 0, 0, 0⟩ = ⟨0, 0, true, true⟩ ∧
    decodeResponse ⟨0xFF, 0xFF, 0xFF, 0xFF, 0xFF, 0xFF⟩ = ⟨255, 255, false, false⟩ ∧
    decodeResponse ⟨0x80, 0x7F, 1, 2, 3, 1⟩ = ⟨128, 127, true, false⟩ ∧
    decodeResponse ⟨0x80, 0x7F, 1, 2, 3, 2⟩ = ⟨128, 127, false, true⟩ ∧
    decodeResponse ⟨0x1E, 0x28, 0, 0, 0, 0xFC⟩ = ⟨30, 40, true, true⟩ ∧
    decodeResponse ⟨0xDC, 0xC8, 0xAA, 0x55, 0xFF, 0xFD⟩ = ⟨220, 200, true, false⟩ ∧
    decodeResponse ⟨0x1D, 0xC9, 0, 0, 0, 0xFE⟩ = ⟨29, 201, false, true⟩ ∧
    decodeResponse ⟨1, 0xFE, 0, 0, 0, 0x80⟩ = ⟨1, 254, true, true⟩ := by decide

/-! ## The poll family -/

/-- Polling at a step, with DS as T3 leaves it after decoding [0, 255, 7, 7, 7, 1]. -/
def engD (q : SeqStep) : State :=
  { eng .polling q with rb := some ⟨0, 255, 7, 7, 7, 1⟩, ds := some ⟨0, 255, true, false⟩ }

theorem test_pDecode :
    after .pDecode { eng .polling .pDecode with rb := some ⟨0, 255, 7, 7, 7, 1⟩ } id = some (engD .pKeyC) := by decide

theorem test_decode_operation :
    after .decode { eng .polling .pDecode with rb := some ⟨30, 220, 0, 0, 0, 3⟩ } (·.ds)
      = some (some ⟨30, 220, false, false⟩) := by decide

-- T3
theorem test_report_keys :
    after .pKeyC (engD .pKeyC) (fun t => (t.seq, t.trace)) = some (.pKeyZ, [.sink (.reportKey .keyC true)]) ∧
    after .pKeyZ (engD .pKeyZ) (fun t => (t.seq, t.trace)) = some (.pAbsX, [.sink (.reportKey .keyZ false)]) := by decide

theorem test_report_axes :
    after .pAbsX (engD .pAbsX) (fun t => (t.seq, t.trace)) = some (.pAbsY, [.sink (.reportAbs .absX 0)]) ∧
    after .pAbsY (engD .pAbsY) (fun t => (t.seq, t.trace)) = some (.pSync, [.sink (.reportAbs .absY 255)]) := by decide

theorem test_pSync :
    after .pSync (engD .pSync) (fun t => (t.st, t.rb, t.ds, t.seq, t.trace))
      = some (.ok, none, none, .idle, [.sink .sync, .done .ok]) := by decide

-- T5
theorem test_pDiag :
    after .pDiag { eng .polling .pDiag with err := some (-110) } (fun t => (t.st, t.err, t.seq, t.trace))
      = some (.ok, none, .idle, [.diag (-110), .done .ok]) := by decide

-- T2
theorem test_poll :
    after .poll (engR .rWait1 [1] [ans 6 30 220 0 0 0 3]) (·.sinkMessages)
      = some [.reportKey .keyC false, .reportKey .keyZ false, .reportAbs .absX 30, .reportAbs .absY 220, .sync] := by
  decide

-- R19: a void register is never given a value
theorem test_void_read : fault? (exec .pKeyC (eng .polling .pKeyC)) = some (.voidRead .ds) := by decide

/-! ## Witnesses: concrete states and operands that meet the hypotheses of the statements, clause by clause -/

theorem witness_BytesDecodeToTheirInstruction :
    (encode .attach).format ≠ .op ∧ (encode .pDiag).format ≠ .op ∧ (encode .trig).format ≠ .op ∧
    (encode .init2).format ≠ .op ∧ (encode (.resp 1 2 3 4 5 0 1 0)).format ≠ .op := by decide

theorem witness_RespFieldsStandWhereTheTableSays : 0 < 2 ^ 48 ∧ 0x807F01020301 < 2 ^ 48 ∧ 2 ^ 48 - 1 < 2 ^ 48 := by decide

theorem witness_ResetEventRestoresTheResetState :
    ({ eng .failed .idle with host := [.reset, .quiet] } : State).host = .reset :: [.quiet] ∧
    (eng .failed .idle).seq = .idle ∧ (eng .polling .rRecv).seq ≠ .idle := by decide

theorem witness_AcceptedCommandsStartTheirSteps :
    (eng .uninitialized .idle).seq = .idle ∧ (eng .uninitialized .idle).ls = .uninitialized ∧
    (eng .polling .idle).seq = .idle ∧ (eng .polling .idle).ls = .polling := by decide

theorem witness_DetachStopsTheEngine :
    (eng .polling .idle).seq = .idle ∧ (eng .polling .idle).ls = .polling ∧ (eng .stopped .idle).ls ≠ .polling ∧
    (eng .polling .rWait2).seq ≠ .idle := by decide

theorem witness_RefusedCommandsChangeOnlyStatus :
    (eng .failed .idle).seq = .idle ∧ (eng .failed .idle).ls ≠ .uninitialized ∧ (eng .failed .idle).ls ≠ .polling ∧
    ({ eng .failed .idle with host := [.command 3] } : State).host = .command 0b11#2 :: [] := by decide

theorem witness_OverlapHasNoOutcome :
    (eng .uninitialized .hSend1).busy = true ∧ (eng .polling .pDiag).busy = true ∧
    ({ eng .polling .pDiag with host := [.command 0] } : State).host = .command 0 :: [] := by decide

/-- Returns on each side of the expected 2: accepted; negative, least and most; too few; too many. -/
theorem witness_handshake_writes :
    (engS .uninitialized .hSend1 [2]).sends = 2 :: [] ∧ (2 : Ret).toInt = 2 ∧ (-1 : Ret).toInt < 0 ∧
    (0x80000000#32 : Ret).toInt < 0 ∧ (0 ≤ (0 : Ret).toInt ∧ (0 : Ret).toInt ≠ 2) ∧
    (0 ≤ (1 : Ret).toInt ∧ (1 : Ret).toInt ≠ 2) ∧ (0 ≤ (3 : Ret).toInt ∧ (3 : Ret).toInt ≠ 2) := by decide

theorem witness_FirstHandshakeWrite :
    (Instr.init1 = .hSend1 ∨ Instr.init1 = .init1) ∧ (engS .uninitialized .hSend1 [2]).sends = 2 :: [] := by decide

theorem witness_HandshakeGapHoldsTheBus : (eng .uninitialized .hBusy).seq = .hBusy := by decide

theorem witness_SecondHandshakeWrite :
    (Instr.init2 = .hSend2 ∨ Instr.init2 = .init2) ∧ (engS .uninitialized .hSend2 [2]).sends = 2 :: [] := by decide

/-- One answer where the first write fails, two where it is accepted. -/
theorem witness_InitOperation :
    (engS .uninitialized .hSend1 [-6]).sends = -6 :: [] ∧ (-6 : Ret).toInt < 0 ∧
    (0 ≤ (3 : Ret).toInt ∧ (3 : Ret).toInt ≠ 2) ∧ (engS .uninitialized .hSend1 [2, 1]).sends = 2 :: [1] ∧
    (2 : Ret).toInt = 2 ∧ [(1 : Ret)] = 1 :: [] ∧ (0 ≤ (1 : Ret).toInt ∧ (1 : Ret).toInt ≠ 2) := by decide

theorem witness_SettleDelaysSleepAndGoOn :
    (eng .polling .rWait1).seq = .rWait1 ∧ (eng .polling .rWait2).seq = .rWait2 := by decide

/-- Returns on each side of the expected 1. -/
theorem witness_TriggerWrite :
    (Instr.trig = .rTrig ∨ Instr.trig = .trig) ∧ (engS .polling .rTrig [1]).sends = 1 :: [] ∧ (1 : Ret).toInt = 1 ∧
    (-1 : Ret).toInt < 0 ∧ (0 ≤ (0 : Ret).toInt ∧ (0 : Ret).toInt ≠ 1) ∧
    (0 ≤ (2 : Ret).toInt ∧ (2 : Ret).toInt ≠ 1) := by decide

/-- Returns on each side of the expected 6. -/
theorem witness_ResponseRead :
    (engR .rRecv [] [ans 6 1 2 3 4 5 6]).recvs = ans 6 1 2 3 4 5 6 :: [] ∧ (6 : Ret).toInt = 6 ∧ (-5 : Ret).toInt < 0 ∧
    (0 ≤ (0 : Ret).toInt ∧ (0 : Ret).toInt ≠ 6) ∧ (0 ≤ (5 : Ret).toInt ∧ (5 : Ret).toInt ≠ 6) ∧
    (0 ≤ (7 : Ret).toInt ∧ (7 : Ret).toInt ≠ 6) := by decide

/-- No receive answer where the trigger fails, one where it is accepted. -/
theorem witness_ReadStateOperation :
    (engR .rWait1 [-6] []).sends = -6 :: [] ∧ (-6 : Ret).toInt < 0 ∧ (0 ≤ (0 : Ret).toInt ∧ (0 : Ret).toInt ≠ 1) ∧
    (engR .rWait1 [1] [ans 6 30 220 0 0 0 3]).sends = 1 :: [] ∧ (1 : Ret).toInt = 1 ∧
    (engR .rWait1 [1] [ans 6 30 220 0 0 0 3]).recvs = ans 6 30 220 0 0 0 3 :: [] ∧
    (ans 6 30 220 0 0 0 3).ret.toInt = 6 ∧ (ans (-110) 0 0 0 0 0 0).ret.toInt < 0 := by decide

theorem witness_PollOperation :
    (engR .rWait1 [0] []).sends = 0 :: [] ∧ (0 ≤ (0 : Ret).toInt ∧ (0 : Ret).toInt ≠ 1) ∧ (-6 : Ret).toInt < 0 ∧
    (engR .rWait1 [1] [ans 7 1 2 3 4 5 6]).sends = 1 :: [] ∧ (1 : Ret).toInt = 1 ∧
    (engR .rWait1 [1] [ans 7 1 2 3 4 5 6]).recvs = ans 7 1 2 3 4 5 6 :: [] ∧
    (0 ≤ (ans 7 1 2 3 4 5 6).ret.toInt ∧ (ans 7 1 2 3 4 5 6).ret.toInt ≠ 6) := by decide

theorem witness_UnansweredCallsDoNotReturn :
    (eng .uninitialized .hSend1).sends = [] ∧ (eng .polling .rRecv).recvs = [] := by decide

/-- R35's three cases at n = 1, and a failing verdict. -/
theorem witness_ClassifySeparatesCounts :
    (1 : Ret).toInt = (1 : Nat) ∧ (-1 : Ret).toInt < 0 ∧ (0 ≤ (0 : Ret).toInt ∧ (0 : Ret).toInt ≠ (1 : Nat)) ∧
    classify (-1) 1 = .err (-1) := by decide

theorem witness_DecodeStepFillsTheDecodedState :
    ({ eng .polling .pDecode with rb := some ⟨1, 2, 3, 4, 5, 6⟩ } : State).rb = some ⟨1, 2, 3, 4, 5, 6⟩ := by decide

theorem witness_ReportStepsEmitOneMessage : (engD .pKeyC).ds = some ⟨0, 255, true, false⟩ := by decide

theorem witness_DiagStepReturnsFromTheError :
    ({ eng .polling .pDiag with err := some (-110) } : State).err = some (-110) := by decide

theorem witness_VoidRegistersCannotBeRead :
    (eng .polling .pDecode).rb = none ∧ (eng .polling .pKeyC).ds = none ∧ (eng .polling .pDiag).err = none := by decide

/-- The answers of one tick, seen by two engines that differ in all else; and a tick whose trigger fails. -/
theorem witness_PollDependsOnItsAnswersAlone :
    (∃ s q t u : State, s ≠ q ∧ s.sends = 1 :: [] ∧ q.sends = s.sends ∧ q.recvs = s.recvs ∧ q.timer = s.timer ∧
      q.draws = s.draws ∧ s.recvs ≠ [] ∧ exec .poll s = .next t ∧ exec .poll q = .next u) ∧
    (engR .rWait1 [0] []).sends = 0 :: [] ∧ (0 : Ret).toInt ≠ 1 ∧ ∃ t, exec .poll (engR .rWait1 [0] []) = .next t := by
  refine ⟨⟨engR .rWait1 [1] [ans 6 30 220 0 0 0 3],
    { engR .pDiag [1] [ans 6 30 220 0 0 0 3] with ls := .stopped, err := some (-1), trace := [.diag (-1)] }, _, _,
    by decide, rfl, rfl, rfl, rfl, rfl, by decide, rfl, rfl⟩, rfl, by decide, _, rfl⟩

theorem witness_TickSleepsWithinItsBounds :
    (∃ t, exec .poll (engR .rWait1 [1] [ans 6 30 220 0 0 0 3]) = .next t) ∧
    (∃ t, exec .poll (engR .rWait1 [2] []) = .next t) ∧
    (engR .rWait1 [1] [ans 6 30 220 0 0 0 3]).sends = 1 :: [] ∧ (engR .rWait1 [2] []).sends = 2 :: [] ∧
    (engR .rWait1 [1] [ans 6 30 220 0 0 0 3]).recvs = ans 6 30 220 0 0 0 3 :: [] ∧
    (1 : Ret).toInt = 1 ∧ (ans 6 30 220 0 0 0 3).ret.toInt = 6 ∧ (2 : Ret).toInt ≠ 1 :=
  ⟨⟨_, rfl⟩, ⟨_, rfl⟩, rfl, rfl, rfl, by decide, by decide, by decide⟩

theorem witness_StepRunsTheDecodedInstruction :
    (eng .polling .rWait1).hostQuiet = true ∧ decode (.uop (eng .polling .rWait1).seq.code) = .ok .rWait1 ∧
    ({ eng .polling .idle with host := [.command 1] } : State).host = .command 1 :: [] ∧ decode (.cmd 1) = .ok .tick ∧
    (eng .polling .idle).hostQuiet = true ∧ (eng .polling .idle).seq = .idle :=
  ⟨rfl, rfl, rfl, rfl, rfl, rfl⟩

theorem witness_FetchWordIsTheNextInstruction :
    decodeTableWord 48 0x807F01020301 = some (.resp 0x80 0x7F 1 2 3 0 0 1) ∧ decodeTableWord 16 0xFB00 = some .init2 ∧
    decodeTableWord 4 14 = some .pDiag ∧ decodeTableWord 2 1 = some .tick := by decide

/-- In the handshake's gap: ATTACH was accepted and INIT1 answered with 2. -/
def inGap : State :=
  { eng .uninitialized .hBusy with sends := [2, 1], recvs := [ans 6 30 220 0 0 0 3],
                                   trace := [.transport (.send [0xF0#8, 0x55#8] 2)] }

/-- In a report: C and Z are out, X is next. -/
def inReport : State :=
  { engD .pAbsX with ds := some (decodeResponse ⟨0, 255, 7, 7, 7, 1⟩),
                     trace := [.sink (.reportKey .keyC true), .sink (.reportKey .keyZ false)] }

theorem witness_StepKeepsRegistersConsistent :
    inGap.Consistent ∧ (∃ t, step inGap = .next t) ∧ inReport.Consistent ∧ (∃ t, step inReport = .next t) :=
  ⟨⟨rfl, rfl, rfl, rfl⟩, ⟨_, rfl⟩, ⟨rfl, rfl, _, rfl, rfl⟩, ⟨_, rfl⟩⟩

theorem witness_StepKeepsBusConformance : inGap.Consistent ∧ inGap.BusConforms ∧ ∃ t, step inGap = .next t :=
  ⟨⟨rfl, rfl, rfl, rfl⟩, rfl, _, rfl⟩

theorem witness_StepKeepsSinkBatchesWhole :
    inReport.Consistent ∧ inReport.BatchesWhole ∧ ∃ t, step inReport = .next t :=
  ⟨⟨rfl, rfl, _, rfl, rfl⟩, rfl, _, rfl⟩

theorem witness_StepKeepsRequiredDelays : inGap.Consistent ∧ inGap.WellSpaced ∧ ∃ t, step inGap = .next t :=
  ⟨⟨rfl, rfl, rfl, rfl⟩, ⟨rfl, rfl⟩, _, rfl⟩

/-- Two settle delays of generator 0 are out, of which the second stands before the receive. -/
def inRead : State :=
  { engR .rRecv [] [ans 6 30 220 0 0 0 3] with
    draws := 2, trace := [.delay (.sleep 0 0), .transport (.send [0x00#8] 1), .delay (.sleep 0 1)] }

theorem witness_StepKeepsDrawsFresh : inRead.DrawsFresh ∧ ∃ t, step inRead = .next t :=
  ⟨⟨by decide, by decide⟩, _, rfl⟩

theorem witness_OutputsComeFromTheirSteps : inGap.host.head? ≠ some .reset ∧ ∃ t, step inGap = .next t :=
  ⟨by decide, _, rfl⟩

/-- LS moves at H_SEND2 (both ways), at H_SEND1, by DETACH and by reset. -/
theorem witness_LifecycleMovesOnlyByItsTable :
    (engS .uninitialized .hSend2 [2]).Consistent ∧
    (∃ t, step (engS .uninitialized .hSend2 [2]) = .next t ∧ t.ls = .polling) ∧
    (∃ t, step (engS .uninitialized .hSend2 [-6]) = .next t ∧ t.ls = .failed) ∧
    (∃ t, step (engS .uninitialized .hSend1 [0]) = .next t ∧ t.ls = .failed) ∧
    (∃ t, step { eng .polling .idle with host := [.command 2] } = .next t ∧ t.ls = .stopped) ∧
    (∃ t, step { eng .stopped .idle with host := [.reset] } = .next t ∧ t.ls = .uninitialized) :=
  ⟨⟨rfl, rfl, rfl, rfl⟩, ⟨_, rfl, rfl⟩, ⟨_, rfl, rfl⟩, ⟨_, rfl, rfl⟩, ⟨_, rfl, rfl⟩, ⟨_, rfl, rfl⟩⟩

/-- A consistent state that the host stops, and one that goes on. -/
theorem witness_OnlyOverlapStopsTheEngine :
    ({ inGap with host := [.command 1] } : State).Consistent ∧
    step { inGap with host := [.command 1] } = .fault .overlap ∧ ∃ t, step inGap = .next t :=
  ⟨⟨rfl, rfl, rfl, rfl⟩, rfl, _, rfl⟩

/-- A dutiful host at each command, at reset and at rest. -/
theorem witness_DutifulHostIsServed :
    (eng .uninitialized .idle).Consistent ∧
    ({ eng .uninitialized .idle with host := [.command 0] } : State).HostObeys ∧
    ({ eng .polling .idle with host := [.command 1] } : State).HostObeys ∧
    ({ eng .polling .idle with host := [.command 2] } : State).HostObeys ∧
    ({ eng .polling .idle with host := [.reset] } : State).HostObeys ∧ inGap.HostObeys :=
  ⟨⟨rfl, rfl, rfl⟩, ⟨rfl, .inl ⟨rfl, rfl⟩⟩, ⟨rfl, .inr ⟨.inl rfl, rfl⟩⟩, ⟨rfl, .inr ⟨.inr rfl, rfl⟩⟩, rfl, trivial⟩

/-- With answers to the handshake's writes and the command on the port, `n` quiet steps after it. -/
def attaching (a : List Ret) (n : Nat) : State :=
  { engS .uninitialized .idle a with host := .command 0b00#2 :: List.replicate n .quiet }

theorem witness_AttachRunsTheHandshake :
    (attaching [3] 1).seq = .idle ∧ (attaching [3] 1).ls = .uninitialized ∧ (attaching [3] 1).sends = 3 :: [] ∧
    (attaching [3] 1).host = .command 0b00#2 :: .quiet :: [] ∧ (0 ≤ (3 : Ret).toInt ∧ (3 : Ret).toInt ≠ 2) ∧
    (-1 : Ret).toInt < 0 ∧ (attaching [2, 1] 3).sends = 2 :: [1] ∧
    (attaching [2, 1] 3).host = .command 0b00#2 :: .quiet :: .quiet :: .quiet :: [] ∧ (2 : Ret).toInt = 2 ∧
    [(1 : Ret)] = 1 :: [] ∧ (0 ≤ (1 : Ret).toInt ∧ (1 : Ret).toInt ≠ 2) := by decide

/-- Polling, with answers to come and TICK on the port, `n` quiet steps after it. -/
def ticking (a : Ret) (b : List RecvAnswer) (n : Nat) : State :=
  { engR .idle [a] b with host := .command 0b01#2 :: (List.replicate n .quiet ++ []) }

theorem witness_TickReportsOneBatch :
    let s := ticking 1 [ans 6 30 220 0 0 0 3] 10
    s.seq = .idle ∧ s.ls = .polling ∧ s.sends = 1 :: [] ∧ s.recvs = ans 6 30 220 0 0 0 3 :: [] ∧
      s.host = .command 0b01#2 :: (List.replicate 10 .quiet ++ []) ∧ (1 : Ret).toInt = 1 ∧ (6 : Ret).toInt = 6 := by
  decide

theorem witness_TickSkipsAFailedRead :
    let s := ticking 0 [] 3
    let q := ticking 1 [ans 5 1 2 3 4 5 0] 5
    s.seq = .idle ∧ s.ls = .polling ∧ s.sends = 0 :: [] ∧ s.host = .command 0b01#2 :: (List.replicate 3 .quiet ++ []) ∧
      (0 : Ret).toInt ≠ 1 ∧ q.sends = 1 :: [] ∧ (1 : Ret).toInt = 1 ∧ q.recvs = ans 5 1 2 3 4 5 0 :: [] ∧
      q.host = .command 0b01#2 :: (List.replicate 5 .quiet ++ []) ∧ (5 : Ret).toInt ≠ 6 := by
  decide

/-- A quiet host; for READ_STATE a trigger that is accepted, one that fails, and one that is never answered. -/
theorem witness_OperationsRefineTheirSteps :
    (engR .rWait1 [1] []).host = [] ∧ (∀ a rs, (engR .rWait1 [1] []).sends = a :: rs → a.toInt = 1) ∧
    (engR .rWait1 [0] []).host = [] ∧ (engR .rWait1 [0] []).sends = 0 :: [] ∧ (0 : Ret).toInt ≠ 1 ∧
    (∀ a rs, (engR .rWait1 [] []).sends = a :: rs → a.toInt = 1) := by
  refine ⟨rfl, fun a rs h => ?_, rfl, rfl, by decide, fun a rs h => ?_⟩
  · cases h; decide
  · cases h

theorem witness_RunningCommandsComplete :
    inGap.Consistent ∧ inGap.host = [] ∧ 2 ≤ inGap.sends.length ∧ 1 ≤ inGap.recvs.length :=
  ⟨⟨rfl, rfl, rfl, rfl⟩, rfl, by decide, by decide⟩

theorem witness_EndedRunsStayEnded :
    ({ eng .stopped .idle with host := [.command 1, .quiet, .command 3] } : State).Ended ∧ (eng .failed .idle).Ended ∧
    HostEvent.reset ∉ [HostEvent.command 1, .quiet, .command 3] :=
  ⟨⟨.inl rfl, rfl⟩, ⟨.inr rfl, rfl⟩, by decide⟩

/-- Two engines of one bus: one in the handshake's gap, one about to send its trigger, scheduled first, with its own
generator; and a third, alone on another bus. -/
def threeEngines (host : List HostEvent) : System :=
  ⟨[⟨inGap, 0, false, none⟩, ⟨{ engS .polling .rTrig [1] with timer := 1, host := host }, 0, false, none⟩,
    ⟨{ eng .polling .rWait1 with timer := 2 }, 1, false, none⟩], [1, 1, 2], 0⟩

-- R135: the trigger waits while the other engine is in the gap, and the wait reads a quiet event
theorem test_arbiter_holds :
    (threeEngines [.quiet]).step.devices.map (fun d => (d.engine.seq, d.engine.host, d.stop))
      = [(.hBusy, [], none), (.rTrig, [], none), (.rWait1, [], none)] := by decide

-- R99: a command presented while the engine waits for the bus is an overlap in that turn; R23: the others go on
theorem test_overlap_while_held :
    (threeEngines [.command 1]).step.step.step.devices.map (fun d => (d.engine.seq, d.stop))
      = [(.hBusy, none), (.rTrig, some (.fault .overlap)), (.rTrig, none)] := by decide

/-- Two engines of one bus, the second with the answers `a` to its first write. -/
def firstWrites (q : SeqStep) (a : List Ret) (turns : List Nat) : System :=
  ⟨[⟨engS .uninitialized q [2, 2], 0, false, none⟩, ⟨engS .uninitialized .hSend1 a, 0, false, none⟩], turns, 0⟩

-- R75: from the issue of its H_SEND1 call, though it has not returned, engine 1 keeps engine 0's handshake off
theorem test_issued_first_write_holds_the_bus :
    (firstWrites .hSend1 [] [1, 0]).step.step.devices.map (fun d => (d.engine.seq, d.engine.calls, d.calling))
      = [(.hSend1, [], false), (.hSend1, [], true)] := by decide

-- R9, R135: an engine at H_SEND1 asserts bus_hold, so a trigger waits; of two first writes the one that comes first goes
theorem test_arbiter_at_first_write :
    (firstWrites .rTrig [2] [0]).step.devices.map (·.engine.seq) = [.rTrig, .hSend1] ∧
    (firstWrites .hSend1 [2] [1, 0]).step.step.devices.map (·.engine.seq) = [.hSend1, .hBusy] ∧
    (firstWrites .hSend1 [2] [0, 1]).step.step.devices.map (·.engine.seq) = [.hBusy, .hSend1] := by decide

theorem witness_DevicesShareOnlyTheBus :
    (threeEngines []).schedule = 1 :: [1, 2] ∧ (∃ d, (threeEngines []).devices[1]? = some d ∧ d.stop = none ∧
      ∃ t, step d.engine = .next t) ∧ (eng .polling .rWait1).aboutToCall = false ∧
    (∃ d, (firstWrites .hSend1 [] [1, 1]).step.devices[1]? = some d ∧ d.calling = true) ∧
    (∀ (j : Nat) (e : Device), j ≠ 2 → (threeEngines []).devices[j]? = some e → e.bus ≠ 1) := by
  refine ⟨rfl, ⟨_, rfl, rfl, _, rfl⟩, rfl, ⟨_, rfl, by decide⟩, ?_⟩
  rintro (_ | _ | _ | j) e hj he <;> simp_all [threeEngines] <;> simp [← he]

theorem witness_FaultStopsOneEngineAlone :
    (threeEngines [.command 1]).schedule = 1 :: [1, 2] ∧
    (∃ d, (threeEngines [.command 1]).devices[1]? = some d ∧ d.stop = none ∧ step d.engine = .fault .overlap) ∧
    ∃ d, (threeEngines [.command 1]).step.devices[1]? = some d ∧ d.stop ≠ none :=
  ⟨rfl, ⟨_, rfl, rfl, rfl⟩, _, rfl, by decide⟩

theorem witness_HeldEngineStillMeetsItsHost :
    let d (host : List HostEvent) : Device := ⟨{ engS .polling .rTrig [1] with host := host }, 0, false, none⟩
    (d []).stop = none ∧ (d []).calling = false ∧ (d []).engine.aboutToCall = true ∧ (d [.quiet]).engine.hostQuiet = true ∧
    (d [.command 2]).engine.host = .command 2 :: [] ∧ (d [.reset]).engine.host = .reset :: [] := by decide

theorem witness_StepKeepsTimersOwn : (threeEngines []).TimersOwn := by
  constructor
  · rintro (_ | _ | _ | i) (_ | _ | _ | j) d e hd he hij <;> simp [threeEngines] at hd he hij <;> subst hd he <;> decide
  · rintro (_ | _ | _ | i) d hd <;> simp [threeEngines] at hd <;> subst hd <;> exact ⟨by decide, by decide⟩

/-- After one turn engine 1 has its first write outstanding. -/
def outstanding : System := (firstWrites .hSend1 [] [1, 0]).step

theorem witness_StepKeepsCallsOutstanding :
    outstanding.CallsOutstanding ∧ ∃ d, outstanding.devices[1]? = some d ∧ d.calling = true := by
  refine ⟨?_, _, rfl, by decide⟩
  rintro (_ | _ | i) d hd hc <;> revert hc <;> cases hd <;> decide

theorem witness_StepKeepsTheBusExclusive : (threeEngines []).BusExclusive ∧ outstanding.BusExclusive := by
  constructor
  · rintro (_ | _ | _ | i) (_ | _ | _ | j) d e hd he hij - - - ⟨h1, h2⟩ <;> simp [threeEngines] at hd he hij <;>
      subst hd he <;> revert h1 h2 <;> decide
  · rintro (_ | _ | i) (_ | _ | j) d e hd he hij - - - ⟨h1, h2⟩ <;> first | exact hij rfl | skip
    all_goals revert h1 h2
    all_goals cases hd
    all_goals cases he
    all_goals decide

/-- The first write outstanding; and H_SEND1 before its issue against a trigger. -/
theorem witness_NoCallEntersAnotherHandshake :
    (∃ d e f, (1 : Nat) ≠ 0 ∧ outstanding.devices[1]? = some d ∧ outstanding.devices[0]? = some e ∧ d.bus = e.bus ∧
      d.stop = none ∧ d.occupiesBus = true ∧ e.calling = false ∧ outstanding.step.devices[0]? = some f) ∧
    (eng .uninitialized .hSend1).busHold = true ∧ (engS .polling .rTrig [1]).busHold = false :=
  ⟨⟨_, _, _, by decide, rfl, rfl, rfl, rfl, by decide, by decide, rfl⟩, rfl, rfl⟩

end Sys2Proof.Tests
end

section
/-! The rules the state family's proofs share: the reads of the transient registers, how a step is found from SEQ and
from the host's event, which steps always answer, and what the invariants say at each value of SEQ. -/

namespace Sys2Proof.Machine

variable {s t : State}

/-! ### Reads of the transient registers (R19) -/

theorem readRb_some {r : RawResponse} (h : s.rb = some r) (go : RawResponse → Result) : readRb s go = go r := by
  simp [readRb, h]

theorem readRb_void (h : s.rb = none) (go : RawResponse → Result) : readRb s go = .fault (.voidRead .rb) := by
  simp [readRb, h]

theorem readDs_some {d : DecodedState} (h : s.ds = some d) (go : DecodedState → Result) : readDs s go = go d := by
  simp [readDs, h]

theorem readDs_void (h : s.ds = none) (go : DecodedState → Result) : readDs s go = .fault (.voidRead .ds) := by
  simp [readDs, h]

theorem readErr_void (h : s.err = none) (go : Ret → Result) : readErr s go = .fault (.voidRead .err) := by
  simp [readErr, h]

/-- A faulting step the sequencer is at ends its pseudo-operation. -/
theorem runExpansion_fault {q : SeqStep} {p : State → Result} {rest : List (SeqStep × (State → Result))} {r : Fault}
    (h : s.seq = q) (hp : p s = .fault r) : runExpansion ((q, p) :: rest) s = .fault r := by
  simp [runExpansion, h, hp]

theorem execPDecode_void (h : s.rb = none) : execPDecode s = .fault (.voidRead .rb) := readRb_void h _

theorem execDecode_void (h : s.rb = none) : execDecode s = .fault (.voidRead .rb) :=
  runExpansion_fault (s.goto_seq .pDecode) (execPDecode_void h)

/-! ### Which instruction a step runs -/

theorem busy_iff : s.busy = true ↔ s.seq ≠ .idle := by simp [State.busy]

theorem busHold_iff : s.busHold = true ↔ s.seq = .hSend1 ∨ s.seq = .hBusy ∨ s.seq = .hSend2 := by
  simp [State.busHold, or_assoc]

theorem aboutToCall_iff :
    s.aboutToCall = true ↔ s.seq = .hSend1 ∨ s.seq = .hSend2 ∨ s.seq = .rTrig ∨ s.seq = .rRecv := by
  simp [State.aboutToCall, or_assoc]

/-- The sequencer runs the instruction that the code of the step it is at decodes to (R11, R60). -/
theorem sequencerStep_at {q : SeqStep} {i : Instr} (hq : s.seq = q) (hd : decode (.uop q.code) = .ok i) :
    sequencerStep s = exec i s := by
  simp [sequencerStep, State.atStep, State.stepWord, hq, hd]

/-- A presented code runs the command it decodes to (R86). -/
theorem commandStep_decoded {code : BitVec 2} {i : Instr} (hd : decode (.cmd code) = .ok i) :
    commandStep code s = exec i s := by
  simp [commandStep, presentedCommand, hd]

/-- While the host presents nothing a step is the sequencer's, with the host's event consumed. -/
theorem step_quiet (h : s.hostQuiet = true) : step s = sequencerStep (s.setHost s.host.tail) := by
  cases hh : s.host with
  | nil =>
    have e : s.setHost [] = s := by rw [← hh]; rfl
    rw [step_eq, hh, List.tail_nil, e]
  | cons ev rest =>
    cases ev with
    | quiet => rw [step_eq, hh, List.tail_cons]
    | command | reset => simp [State.hostQuiet, hh] at h

theorem step_command {code : BitVec 2} {rest : List HostEvent} (h : s.host = .command code :: rest) :
    step s = commandStep code (s.setHost rest) := by rw [step_eq, h]

theorem step_reset {rest : List HostEvent} (h : s.host = .reset :: rest) :
    step s = resetEngine (s.setHost rest) := by rw [step_eq, h]

/-! ### Which steps answer a next state -/

theorem raiseTransportError_answers (w : Running) (c : Ret) (s : State) :
    ∃ t, raiseTransportError w c s = .next t := by
  cases w with
  | attach => exact ⟨_, raise_attach c s⟩
  | tick => exact ⟨_, raise_tick c s⟩

/-- A send never stops the engine, whatever the transport answers, where an accepted one goes on. -/
theorem sendFrame_answers (f : List Byte) (w : Running) (g : State → State) (s : State) :
    ∃ t, sendFrame f w (fun u => .next (g u)) s = .next t := by
  cases hs : s.sends with
  | nil => exact ⟨s, sendFrame_waiting f w _ hs⟩
  | cons ret rest =>
    rw [sendFrame_returned f w _ hs]
    cases classify ret f.length with
    | ok => exact ⟨_, rfl⟩
    | err c => exact raiseTransportError_answers w c _

theorem acceptResponse_answers (a : RecvAnswer) (s : State) : ∃ t, acceptResponse a s = .next t := by
  unfold acceptResponse
  cases classify a.ret Config.nResp with
  | ok => exact ⟨_, rfl⟩
  | err c => exact raiseTransportError_answers .tick c s

theorem execRRecv_answers (s : State) : ∃ t, execRRecv s = .next t := by
  cases hr : s.recvs with
  | nil => exact ⟨s, memRead_waiting _ hr⟩
  | cons a rest =>
    rw [execRRecv, memRead_returned _ hr]
    exact acceptResponse_answers a _

/-- A step that calls the transport reads no register that could be void, so it always answers. -/
theorem sequencerStep_answers_of_aboutToCall (h : s.aboutToCall = true) : ∃ t, sequencerStep s = .next t := by
  obtain q | q | q | q := aboutToCall_iff.mp h
  · rw [sequencerStep_at q rfl]; exact sendFrame_answers Config.init1Frame .attach _ s
  · rw [sequencerStep_at q rfl]
    exact sendFrame_answers Config.init2Frame .attach (fun u => (u.setLs .polling).complete .ok) s
  · rw [sequencerStep_at q rfl]; exact sendFrame_answers Config.trigFrame .tick _ s
  · rw [sequencerStep_at q rfl]; exact execRRecv_answers s

/-- Presenting a command at IDLE always answers: it starts, completes or is refused (R86, R98). -/
theorem takeCommand_answers_of_idle (q : s.seq = .idle) (b : Bool) {start : State → Result}
    (hstart : ∀ u, ∃ t, start u = .next t) : ∃ t, takeCommand b start s = .next t := by
  cases b with
  | true => rw [takeCommand_accepted start q]; exact hstart s
  | false => exact ⟨_, takeCommand_refused start q⟩

/-- Every presented code is one `takeCommand`, whose start always answers. -/
theorem commandStep_takeCommand (code : BitVec 2) (s : State) :
    ∃ b start, commandStep code s = takeCommand b start s ∧ ∀ u, ∃ t, start u = .next t := by
  unfold commandStep
  rw [presentedCommand_eq]
  by_cases c0 : code = 0
  · rw [if_pos c0]; exact ⟨_, _, rfl, fun _ => ⟨_, rfl⟩⟩
  by_cases c1 : code = 1
  · rw [if_neg c0, if_pos c1]; exact ⟨_, _, rfl, fun _ => ⟨_, rfl⟩⟩
  by_cases c2 : code = 2
  · rw [if_neg c0, if_neg c1, if_pos c2]; exact ⟨_, _, rfl, fun _ => ⟨_, rfl⟩⟩
  · rw [if_neg c0, if_neg c1, if_neg c2]; exact ⟨_, _, rfl, fun _ => ⟨_, rfl⟩⟩

theorem commandStep_busy (code : BitVec 2) (q : s.seq ≠ .idle) : commandStep code s = .fault .overlap := by
  obtain ⟨b, start, e, -⟩ := commandStep_takeCommand code s
  rw [e, takeCommand_busy b start q]

theorem commandStep_answers_of_idle (code : BitVec 2) (q : s.seq = .idle) : ∃ t, commandStep code s = .next t := by
  obtain ⟨b, start, e, hstart⟩ := commandStep_takeCommand code s
  rw [e]
  exact takeCommand_answers_of_idle q b hstart

/-- What the host presents while BUSY is an overlap, whatever it is (R99, R132). -/
theorem step_presented_busy (h : s.hostQuiet = false) (q : s.seq ≠ .idle) : step s = .fault .overlap := by
  cases hh : s.host with
  | nil => simp [State.hostQuiet, hh] at h
  | cons e rest =>
    cases e with
    | quiet => simp [State.hostQuiet, hh] at h
    | command code => rw [step_command hh]; exact commandStep_busy code q
    | reset => rw [step_reset hh]; exact resetEngine_busy q

/-- At IDLE every step answers, whatever the host does. -/
theorem step_answers_of_idle (q : s.seq = .idle) : ∃ t, step s = .next t := by
  rw [step_eq]
  split
  · exact ⟨_, sequencerStep_idle q⟩
  · exact ⟨_, sequencerStep_idle q⟩
  · exact commandStep_answers_of_idle _ q
  · exact ⟨_, resetEngine_idle q⟩

/-! ### The registers at each value of SEQ -/

@[simp] theorem consistent_setHost (h : List HostEvent) : (s.setHost h).Consistent ↔ s.Consistent := Iff.rfl

theorem consistent_of_idle (q : s.seq = .idle) : s.Consistent ↔ s.Void := by
  simp [State.Consistent, q]

theorem consistent_of_handshake (q : s.seq = .hSend1 ∨ s.seq = .hBusy ∨ s.seq = .hSend2) :
    s.Consistent ↔ s.ls = .uninitialized ∧ s.Void := by
  obtain q | q | q := q <;> simp [State.Consistent, q]

theorem consistent_of_read (q : s.seq = .rWait1 ∨ s.seq = .rTrig ∨ s.seq = .rWait2 ∨ s.seq = .rRecv) :
    s.Consistent ↔ s.ls = .polling ∧ s.Void := by
  obtain q | q | q | q := q <;> simp [State.Consistent, q]

theorem consistent_of_pDecode (q : s.seq = .pDecode) :
    s.Consistent ↔ s.ls = .polling ∧ s.rb ≠ none ∧ s.ds = none ∧ s.err = none := by
  simp [State.Consistent, q]

theorem consistent_of_report
    (q : s.seq = .pKeyC ∨ s.seq = .pKeyZ ∨ s.seq = .pAbsX ∨ s.seq = .pAbsY ∨ s.seq = .pSync) :
    s.Consistent ↔ s.ls = .polling ∧ s.err = none ∧ ∃ r, s.rb = some r ∧ s.ds = some (decodeResponse r) := by
  obtain q | q | q | q | q := q <;> simp [State.Consistent, q]

theorem consistent_of_pDiag (q : s.seq = .pDiag) :
    s.Consistent ↔ s.ls = .polling ∧ s.rb = none ∧ s.ds = none ∧ ∃ c, s.err = some c ∧ c.toInt < 0 := by
  simp [State.Consistent, q]

/-- A completed command leaves the transient registers void at IDLE, which is all that is asked there (R24). -/
theorem consistent_complete (c : Completion) (s : State) : (s.complete c).Consistent :=
  (consistent_of_idle rfl).mpr ⟨rfl, rfl, rfl⟩

theorem consistent_renewed (s : State) : s.renewed.Consistent := (consistent_of_idle rfl).mpr ⟨rfl, rfl, rfl⟩

/-- A failed read of a tick goes to P_DIAG with a negative code (R14, R110). -/
theorem consistent_failed_read (ret : Ret) (l : s.ls = .polling) (v : s.Void) :
    ((s.setErr (failCode ret)).goto .pDiag).Consistent := by
  obtain ⟨hrb, hds, -⟩ := v
  exact (consistent_of_pDiag rfl).mpr ⟨l, hrb, hds, _, rfl, failCode_negative ret⟩

/-- A report step keeps what RB, DS and ERR hold and goes on to a report step. -/
theorem consistent_report_next {m : SinkMessage} {q : SeqStep} (h : s.Consistent)
    (hs : s.seq = .pKeyC ∨ s.seq = .pKeyZ ∨ s.seq = .pAbsX ∨ s.seq = .pAbsY)
    (hq : q = .pKeyZ ∨ q = .pAbsX ∨ q = .pAbsY ∨ q = .pSync) :
    ((s.emit (.sink m)).goto q).Consistent := by
  have kept := (consistent_of_report (by tauto)).mp h
  exact (consistent_of_report (.inr hq)).mpr kept

theorem SeqMove.keeps_consistent (m : SeqMove s t) (h : s.Consistent) : t.Consistent := by
  cases m with
  | waiting | pendingSend | pendingRecv => exact h
  | send1Ok _ _ q =>
    exact (consistent_of_handshake (.inr (.inl rfl))).mpr ((consistent_of_handshake (.inl q)).mp h)
  | gap q =>
    exact (consistent_of_handshake (.inr (.inr rfl))).mpr ((consistent_of_handshake (.inr (.inl q))).mp h)
  | send1Fail | send2Ok | send2Fail | synced | diagnosed => exact consistent_complete _ _
  | wait1 q => exact (consistent_of_read (.inr (.inl rfl))).mpr ((consistent_of_read (.inl q)).mp h)
  | trigOk _ _ q =>
    exact (consistent_of_read (.inr (.inr (.inl rfl)))).mpr ((consistent_of_read (.inr (.inl q))).mp h)
  | wait2 q =>
    exact (consistent_of_read (.inr (.inr (.inr rfl)))).mpr ((consistent_of_read (.inr (.inr (.inl q)))).mp h)
  | trigFail ret _ q =>
    obtain ⟨l, v⟩ := (consistent_of_read (.inr (.inl q))).mp h
    exact consistent_failed_read ret l v
  | recvFail a _ q =>
    obtain ⟨l, v⟩ := (consistent_of_read (.inr (.inr (.inr q)))).mp h
    exact consistent_failed_read a.ret l v
  | recvOk a _ q =>
    obtain ⟨l, -, hds, herr⟩ := (consistent_of_read (.inr (.inr (.inr q)))).mp h
    exact (consistent_of_pDecode rfl).mpr ⟨l, Option.some_ne_none _, hds, herr⟩
  | decoded r q hr =>
    obtain ⟨l, -, -, herr⟩ := (consistent_of_pDecode q).mp h
    exact (consistent_of_report (.inl rfl)).mpr ⟨l, herr, r, hr, rfl⟩
  | keyC _ q => exact consistent_report_next h (.inl q) (.inl rfl)
  | keyZ _ q => exact consistent_report_next h (.inr (.inl q)) (.inr (.inl rfl))
  | absX _ q => exact consistent_report_next h (.inr (.inr (.inl q))) (.inr (.inr (.inl rfl)))
  | absY _ q => exact consistent_report_next h (.inr (.inr (.inr q))) (.inr (.inr (.inr rfl)))

theorem CommandMove.keeps_consistent (m : CommandMove s t) (h : s.Consistent) : t.Consistent := by
  cases m with
  | attach q l => exact (consistent_of_handshake (.inl rfl)).mpr ⟨l, (consistent_of_idle q).mp h⟩
  | tick q l => exact (consistent_of_read (.inl rfl)).mpr ⟨l, (consistent_of_idle q).mp h⟩
  | detach | refused => exact consistent_complete _ _

/-- From a consistent state the sequencer always answers: each step finds the register it reads written. -/
theorem sequencerStep_answers_of_consistent (h : s.Consistent) : ∃ t, sequencerStep s = .next t := by
  cases q : s.seq with
  | idle => exact ⟨s, sequencerStep_idle q⟩
  | hSend1 | hSend2 | rTrig | rRecv =>
    exact sequencerStep_answers_of_aboutToCall (aboutToCall_iff.mpr (by simp [q]))
  | hBusy | rWait1 | rWait2 | pSync => rw [sequencerStep_at q rfl]; exact ⟨_, rfl⟩
  | pDecode =>
    obtain ⟨-, hrb, -, -⟩ := (consistent_of_pDecode q).mp h
    obtain ⟨r, hr⟩ := Option.ne_none_iff_exists'.mp hrb
    rw [sequencerStep_at q rfl]
    exact ⟨_, readRb_some hr _⟩
  | pKeyC | pKeyZ | pAbsX | pAbsY =>
    obtain ⟨-, -, r, -, hds⟩ := (consistent_of_report (by simp [q])).mp h
    rw [sequencerStep_at q rfl]
    exact ⟨_, readDs_some hds _⟩
  | pDiag =>
    obtain ⟨-, -, -, c, hc, -⟩ := (consistent_of_pDiag q).mp h
    rw [sequencerStep_at q rfl]
    exact ⟨_, returnFromError_some hc⟩

/-- A consistent engine steps on, or the host presents something while it is BUSY. -/
theorem step_of_consistent (h : s.Consistent) :
    (∃ t, step s = .next t) ∨ (step s = .fault .overlap ∧ s.seq ≠ .idle ∧ s.hostQuiet = false) := by
  cases hq : s.hostQuiet with
  | true => rw [step_quiet hq]; exact .inl (sequencerStep_answers_of_consistent ((consistent_setHost _).mpr h))
  | false =>
    by_cases q : s.seq = .idle
    · exact .inl (step_answers_of_idle q)
    · exact .inr ⟨step_presented_busy hq q, q, rfl⟩

/-- Where the sequencer moves LS, and what it leaves in ST there (R97, R103). -/
theorem SeqMove.lifecycle (m : SeqMove s t) :
    t.ls = s.ls ∨ (s.seq = .hSend2 ∧ t.ls = .polling ∧ t.st = .ok) ∨
    ((s.seq = .hSend1 ∨ s.seq = .hSend2) ∧ t.ls = .failed ∧ t.st = .attachError) := by
  cases m with
  | send2Ok _ _ q => exact .inr (.inl ⟨q, rfl, rfl⟩)
  | send1Fail _ _ q => exact .inr (.inr ⟨.inl q, rfl, rfl⟩)
  | send2Fail _ _ q => exact .inr (.inr ⟨.inr q, rfl, rfl⟩)
  | _ => exact .inl rfl

/-- The one command that moves LS is an accepted DETACH (R96). -/
theorem CommandMove.lifecycle (m : CommandMove s t) :
    t.ls = s.ls ∨ (s.seq = .idle ∧ s.ls = .polling ∧ t.ls = .stopped ∧ t.st = .ok) := by
  cases m with
  | detach q l => exact .inr ⟨q, l, rfl, rfl⟩
  | _ => exact .inl rfl

/-! ### What holds after the handle is created anew, whatever inputs are to come -/

theorem busConforms_renewed (s : State) : s.renewed.BusConforms := rfl

theorem batchesWhole_renewed (s : State) : s.renewed.BatchesWhole := rfl

theorem wellSpaced_renewed (s : State) : s.renewed.WellSpaced := ⟨rfl, trivial⟩

/-! ### The settle draws of the trace -/

@[simp] theorem drawn_goto (q : SeqStep) : (s.goto q).drawn = s.drawn := rfl
@[simp] theorem drawn_setLs (l : Lifecycle) : (s.setLs l).drawn = s.drawn := rfl
@[simp] theorem drawn_setErr (c : Ret) : (s.setErr c).drawn = s.drawn := rfl
@[simp] theorem drawn_setRb (r : RawResponse) : (s.setRb r).drawn = s.drawn := rfl
@[simp] theorem drawn_setDs (d : DecodedState) : (s.setDs d).drawn = s.drawn := rfl
@[simp] theorem drawn_setHost (h : List HostEvent) : (s.setHost h).drawn = s.drawn := rfl
@[simp] theorem drawn_setSends (l : List Ret) : (s.setSends l).drawn = s.drawn := rfl
@[simp] theorem drawn_setRecvs (l : List RecvAnswer) : (s.setRecvs l).drawn = s.drawn := rfl
@[simp] theorem drawn_renewed : s.renewed.drawn = [] := rfl
@[simp] theorem drawn_emit_transport (c : TransportCall) : (s.emit (.transport c)).drawn = s.drawn := by
  simp [State.drawn, Event.draw?]
@[simp] theorem drawn_emit_sink (m : SinkMessage) : (s.emit (.sink m)).drawn = s.drawn := by
  simp [State.drawn, Event.draw?]
@[simp] theorem drawn_emit_diag (c : Ret) : (s.emit (.diag c)).drawn = s.drawn := by
  simp [State.drawn, Event.draw?]
@[simp] theorem drawn_busyWait : s.busyWait.drawn = s.drawn := by simp [State.drawn, Event.draw?]
@[simp] theorem drawn_complete (c : Completion) : (s.complete c).drawn = s.drawn := by
  simp [State.drawn, Event.draw?]
@[simp] theorem drawn_sleep : s.sleep.drawn = s.drawn ++ [(s.timer, s.draws)] := by
  simp [State.drawn, Event.draw?]

/-- `DrawsFresh` reads the draws of the trace, the generator and the counter, and nothing else. -/
theorem drawsFresh_of_eq (h : s.DrawsFresh) (hd : t.drawn = s.drawn) (ht : t.timer = s.timer)
    (hn : t.draws = s.draws) : t.DrawsFresh := by
  unfold State.DrawsFresh
  rw [hd, ht, hn]
  exact h

@[simp] theorem drawsFresh_setHost (h : List HostEvent) : (s.setHost h).DrawsFresh ↔ s.DrawsFresh := Iff.rfl

theorem drawsFresh_renewed (s : State) : s.renewed.DrawsFresh := by simp [State.DrawsFresh]

/-- A settle delay draws a number above all those before it (R67, R123). -/
theorem drawsFresh_sleep (h : s.DrawsFresh) : s.sleep.DrawsFresh := by
  obtain ⟨hnodup, hbound⟩ := h
  have new : (s.timer, s.draws) ∉ s.drawn := fun hmem => absurd (hbound _ hmem).2 (Nat.lt_irrefl _)
  refine ⟨by rw [drawn_sleep]; exact hnodup.append (List.nodup_singleton _) (List.disjoint_singleton.mpr new), ?_⟩
  intro p hp
  rw [drawn_sleep, List.mem_append, List.mem_singleton] at hp
  obtain hp | rfl := hp
  · exact ⟨(hbound p hp).1, Nat.lt_succ_of_lt (hbound p hp).2⟩
  · exact ⟨rfl, Nat.lt_succ_self _⟩

/-- Of the sequencer's steps only the two settle delays draw. -/
theorem SeqMove.keeps_drawsFresh (m : SeqMove s t) (h : s.DrawsFresh) : t.DrawsFresh := by
  cases m with
  | wait1 | wait2 => exact drawsFresh_of_eq (drawsFresh_sleep h) (drawn_goto _) rfl rfl
  | _ => exact drawsFresh_of_eq h (by simp) rfl rfl

theorem CommandMove.keeps_drawsFresh (m : CommandMove s t) (h : s.DrawsFresh) : t.DrawsFresh := by
  cases m <;> exact drawsFresh_of_eq h (by simp) rfl rfl

theorem step_keeps_drawsFresh (e : step s = .next t) (h : s.DrawsFresh) : t.DrawsFresh := by
  obtain ⟨-, m⟩ | ⟨_, _, -, m, -⟩ | ⟨_, -, -, rfl⟩ := step_cases e
  · exact m.keeps_drawsFresh ((drawsFresh_setHost _).mpr h)
  · exact m.keeps_drawsFresh ((drawsFresh_setHost _).mpr h)
  · exact drawsFresh_renewed _

/-! ### Turns of a device and of a system -/

/-- An engine that goes on in its turn took its step, or waited for the bus and only read a host event. -/
theorem State.turn_next_cases {held : Bool} (h : s.turn held = .next t) :
    t = s.setHost s.host.tail ∨ step s = .next t := by
  obtain ⟨-, -, -, e⟩ | ⟨e, -⟩ := State.turn_cases held s
  · exact .inl (Host.Outcome.next.inj (h.symm.trans e))
  · exact .inr (e.symm.trans h)

/-- What a device's own step faults with, its turn faults with, whatever the arbiter says: an engine that could be made
to wait is at a call with its host quiet, and there no step faults. -/
theorem State.turn_fault_of_step {r : Fault} (h : step s = .fault r) (held : Bool) : s.turn held = .fault r := by
  obtain ⟨-, hcall, hquiet, -⟩ | ⟨e, -⟩ := State.turn_cases held s
  · obtain ⟨t, ht⟩ := sequencerStep_answers_of_aboutToCall (s := s.setHost s.host.tail) hcall
    rw [step_quiet hquiet, ht] at h
    cases h
  · exact e.trans h

/-- A turn keeps the engine's generator. -/
theorem Device.turn_timer (held : Bool) (d : Device) : (d.turn held).engine.timer = d.engine.timer := by
  obtain ⟨-, ⟨e, -, -⟩ | ⟨t, -, ht, e⟩⟩ := Device.turn_cases held d
  · rw [e]
  · rw [e]
    obtain rfl | hs := State.turn_next_cases ht
    · rfl
    · exact step_timer hs

theorem Device.turn_keeps_drawsFresh {d : Device} (held : Bool) (h : d.engine.DrawsFresh) :
    (d.turn held).engine.DrawsFresh := by
  obtain ⟨-, ⟨e, -, -⟩ | ⟨t, -, ht, e⟩⟩ := Device.turn_cases held d
  · rw [e]; exact h
  · rw [e]
    obtain rfl | hs := State.turn_next_cases ht
    · exact (drawsFresh_setHost _).mpr h
    · exact step_keeps_drawsFresh hs h

/-- A call that has no answer now has none after the turn. -/
theorem State.turn_keeps_callUnanswered {held : Bool} (ht : s.turn held = .next t) (h : s.callUnanswered = true) :
    t.callUnanswered = true := by
  have waits : t = s.setHost s.host.tail := (State.turn_next_cases ht).elim id (step_unanswered h)
  rw [waits]
  exact h

theorem Device.turn_keeps_outstanding {d : Device} (held : Bool)
    (h : d.calling = true → d.engine.callUnanswered = true) (hc : (d.turn held).calling = true) :
    (d.turn held).engine.callUnanswered = true := by
  obtain ⟨-, ⟨he, hcall, -⟩ | ⟨t, -, ht, e⟩⟩ := Device.turn_cases held d
  · rw [he]; exact h (hcall ▸ hc)
  · rw [e] at hc ⊢
    exact State.turn_keeps_callUnanswered ht (Bool.and_eq_true_iff.mp hc).1

/-- A device with no call to make, so none without an answer, has the same turn whatever the arbiter says. -/
theorem Device.turn_no_call {d : Device} (h : d.engine.aboutToCall = false) (held : Bool) :
    d.turn held = d.turn false := by
  have hu : d.engine.callUnanswered = false := by
    rw [← Bool.not_eq_true] at h ⊢
    exact mt State.aboutToCall_of_unanswered h
  simp [Device.turn, State.turn_no_call h, hu]

/-- What stands at a place after a turn is what stood there, or that after its own turn. -/
theorem System.step_device_from {y : System} {j : Nat} {f : Device} (h : y.step.devices[j]? = some f) :
    ∃ d, y.devices[j]? = some d ∧ (f = d ∨ ∃ held, f = d.turn held) := by
  obtain ⟨k, hk⟩ := System.step_device y
  obtain hf | ⟨-, d, hd, rfl⟩ := hk j f h
  · exact ⟨f, hf, .inl rfl⟩
  · exact ⟨d, hd, .inr ⟨_, rfl⟩⟩

/-- Every device of the next system has the generator of the device it comes from, and fresh draws if that had. -/
theorem System.step_device_draws {y : System} {j : Nat} {f : Device} (h : y.step.devices[j]? = some f) :
    ∃ d, y.devices[j]? = some d ∧ f.engine.timer = d.engine.timer ∧ (d.engine.DrawsFresh → f.engine.DrawsFresh) := by
  obtain ⟨d, hd, rfl | ⟨held, rfl⟩⟩ := System.step_device_from h
  · exact ⟨_, hd, rfl, id⟩
  · exact ⟨d, hd, Device.turn_timer held d, Device.turn_keeps_drawsFresh held⟩

theorem System.step_keeps_timersOwn {y : System} (h : y.TimersOwn) : y.step.TimersOwn := by
  obtain ⟨distinct, fresh⟩ := h
  constructor
  · intro i j f g hf hg hij
    obtain ⟨d, hd, htd, -⟩ := System.step_device_draws hf
    obtain ⟨e, he, hte, -⟩ := System.step_device_draws hg
    rw [htd, hte]
    exact distinct i j d e hd he hij
  · intro i f hf
    obtain ⟨d, hd, -, hfresh⟩ := System.step_device_draws hf
    exact hfresh (fresh i d hd)

/-- Engines that draw each from its own generator share no draw. -/
theorem System.TimersOwn.drawn_disjoint {y : System} (h : y.TimersOwn) {i j : Nat} {d e : Device} (hij : i ≠ j)
    (hd : y.devices[i]? = some d) (he : y.devices[j]? = some e) : ∀ p ∈ d.engine.drawn, p ∉ e.engine.drawn := by
  obtain ⟨distinct, fresh⟩ := h
  obtain ⟨-, ownD⟩ := fresh i d hd
  obtain ⟨-, ownE⟩ := fresh j e he
  intro p hpd hpe
  exact distinct i j d e hd he hij ((ownD p hpd).1.symm.trans (ownE p hpe).1)

end Sys2Proof.Machine
end

section
/-! The obligations of the state family. -/

namespace Sys2Proof.Machine

/-- Settles O39: the inversion of the step, and consistency kept by each kind of move. -/
theorem stepKeepsRegistersConsistent : Obligations.StepKeepsRegistersConsistent := by
  intro s t h e
  obtain ⟨-, m⟩ | ⟨_, _, -, m, -⟩ | ⟨_, -, -, rfl⟩ := step_cases e
  · exact m.keeps_consistent ((consistent_setHost _).mpr h)
  · exact m.keeps_consistent ((consistent_setHost _).mpr h)
  · exact consistent_renewed _

/-- Settles O55: a turn keeps each engine's generator and the freshness of its draws, and a draw names its generator. -/
theorem stepKeepsTimersOwn : Obligations.StepKeepsTimersOwn := by
  intro y h
  have h' := System.step_keeps_timersOwn h
  exact ⟨h', fun i j d e hij hd he => h'.drawn_disjoint hij hd he⟩

/-- Settles O37: LS moves at the two handshake writes, by DETACH and by reset; that it was Uninitialized at the writes is
consistency. -/
theorem lifecycleMovesOnlyByItsTable : Obligations.LifecycleMovesOnlyByItsTable := by
  intro s t h e
  obtain ⟨-, m⟩ | ⟨code, rest, hh, m, hcode⟩ | ⟨rest, hh, q, rfl⟩ := step_cases e
  · obtain same | ⟨q, l, st⟩ | ⟨q, l, st⟩ := m.lifecycle
    · exact .inl same
    · exact .inr (.inl ⟨((consistent_of_handshake (.inr (.inr q))).mp h).1, q, l, st⟩)
    · have q' : s.seq = .hSend1 ∨ s.seq = .hSend2 := q
      exact .inr (.inr (.inl ⟨((consistent_of_handshake (by tauto)).mp h).1, q, l, st⟩))
  · obtain same | ⟨q, l, l', st⟩ := m.lifecycle
    · exact .inl same
    · have moved : t.ls ≠ s.ls := by rw [l', show s.ls = .polling from l]; decide
      exact .inr (.inr (.inr (.inl ⟨l, q, by rw [hh, hcode moved]; rfl, l', st⟩)))
  · exact .inr (.inr (.inr (.inr ⟨q, by rw [hh]; rfl, rfl⟩)))

/-- Settles O40: a consistent engine answers, or the host presents something while BUSY. -/
theorem onlyOverlapStopsTheEngine : Obligations.OnlyOverlapStopsTheEngine := by
  intro s h
  obtain ⟨t, e⟩ | ⟨e, q, hq⟩ := step_of_consistent h
  · rw [e]
    exact ⟨nofun, nofun⟩
  · rw [e]
    exact ⟨fun r hr => ⟨(Host.Outcome.fault.inj hr).symm, busy_iff.mpr q, hq⟩, nofun⟩

/-- Settles O52: the scheduled device alone is written, with its turn; the arbiter has no say where the device has no
call to make, has one outstanding, or is alone on its bus. -/
theorem devicesShareOnlyTheBus : Obligations.DevicesShareOnlyTheBus := by
  intro y i rest d hsched hd
  have hlen : i < y.devices.length := (List.getElem?_eq_some_iff.mp hd).1
  have own : y.step.devices[i]? = some (d.turn (y.heldOff i)) := by
    rw [System.step_scheduled hsched hd, List.getElem?_set_self hlen]
  refine ⟨fun j hj => ?_, ?_, ?_, fun alone => ?_, fun hstop t ht => ?_⟩
  · rw [System.step_scheduled hsched hd, List.getElem?_set_ne hj.symm]
  · rw [own]
    cases y.heldOff i with
    | false => exact .inl rfl
    | true => exact .inr rfl
  · rintro (hcall | hcalling)
    · rw [own, Device.turn_no_call hcall]
    · rw [own, System.heldOff_calling hd hcalling]
  · rw [own, System.heldOff_alone hd alone]
  · rw [Device.turn_next hstop ((State.turn_free _).trans ht)]
    simp

/-- Settles O53: the turn faults as the step does, whatever the arbiter says, and a stopped device's turn is the device
itself. -/
theorem faultStopsOneEngineAlone : Obligations.FaultStopsOneEngineAlone := by
  intro y i rest d hsched hd
  rw [System.step_scheduled hsched hd]
  refine ⟨fun hstop r hr => ?_, fun hstop => ?_⟩
  · rw [Device.turn_fault hstop (State.turn_fault_of_step hr _)]
  · rw [Device.turn_stopped hstop]
    obtain ⟨hlen, rfl⟩ := List.getElem?_eq_some_iff.mp hd
    exact List.set_getElem_self hlen

/-- Settles O56: a turn marks a call only where the transport holds no answer, and such a call stays where it is. -/
theorem stepKeepsCallsOutstanding : Obligations.StepKeepsCallsOutstanding := by
  intro y h j f hf hc
  obtain ⟨d, hd, rfl | ⟨held, rfl⟩⟩ := System.step_device_from hf
  · exact h j _ hd hc
  · exact Device.turn_keeps_outstanding held (h j d hd) hc

/-- Settles O6: every value is written in the definition it is a value of. -/
theorem resetLeavesTheStatedValues : Obligations.ResetLeavesTheStatedValues := by
  unfold Obligations.ResetLeavesTheStatedValues
  decide

/-- Settles O8: both flags are tests of SEQ. -/
theorem derivedFlagsFollowSeq : Obligations.DerivedFlagsFollowSeq :=
  fun _ => ⟨busy_iff, busHold_iff⟩

/-- Settles O30: each of these steps begins with the read of its register. -/
theorem voidRegistersCannotBeRead : Obligations.VoidRegistersCannotBeRead := by
  intro s
  refine ⟨fun hrb => ⟨execPDecode_void hrb, execDecode_void hrb⟩, fun hds i hi => ?_,
    fun herr => readErr_void herr _⟩
  rcases hi with rfl | rfl | rfl | rfl <;> exact readDs_void hds _

/-- Settles O34: the step by the host's event, then the instruction by its code. -/
theorem stepRunsTheDecodedInstruction : Obligations.StepRunsTheDecodedInstruction := by
  refine ⟨fun s i hq hd => ?_, fun s i code rest hh hd => ?_, fun s hq q => ?_⟩
  · rw [step_quiet hq]
    exact sequencerStep_at rfl hd
  · rw [step_command hh]
    exact commandStep_decoded hd
  · rw [step_quiet hq]
    exact sequencerStep_idle q

/-- Settles O38: the state is the one in which the handle, with these inputs, is created anew. -/
theorem resetStateIsSafe : Obligations.ResetStateIsSafe := by
  intro h a b k n s
  have e : s = s.renewed := rfl
  rw [e]
  exact ⟨consistent_renewed s, busConforms_renewed s, batchesWhole_renewed s, wellSpaced_renewed s,
    drawsFresh_renewed s⟩

end Sys2Proof.Machine
end

section
/-! The rules the memory family's proofs share: the channels of the trace and the order each must keep, the verdict
of the validation, what a turn does that the arbiter holds off, and how a table word reaches the next step. -/

namespace Sys2Proof.Machine

variable {s t : State}

/-! ### The transport calls and the phase they lead to (R142) -/

/-- One more call moves the phase on from where the calls before it led. -/
theorem BusPhase.afterAll_concat (p : BusPhase) (l : List TransportCall) (c : TransportCall) :
    p.afterAll (l ++ [c]) = (p.afterAll l).bind fun q => q.after c := by
  induction l generalizing p with
  | nil => cases h : p.after c <;> simp [BusPhase.afterAll, h]
  | cons b l ih => cases h : p.after b <;> simp [BusPhase.afterAll, h, ih]

@[simp] theorem busConforms_setHost (h : List HostEvent) : (s.setHost h).BusConforms ↔ s.BusConforms := Iff.rfl

/-- A step without a call conforms where it stays in its phase. -/
theorem busConforms_of_no_call (h : s.BusConforms) (hp : t.busPhase = s.busPhase)
    (hc : t.calls = s.calls := by simp [State.calls, Event.call?]) : t.BusConforms := by
  rw [State.BusConforms, hc, hp]
  exact h

/-- A step with one call conforms where the call leads from its phase to the next. -/
theorem busConforms_of_call (c : TransportCall) (h : s.BusConforms) (hp : s.busPhase.after c = some t.busPhase)
    (hc : t.calls = s.calls ++ [c] := by simp [State.calls, Event.call?]) : t.BusConforms := by
  rw [State.BusConforms, hc, BusPhase.afterAll_concat, h]
  exact hp

/-- Each call the sequencer makes is the one its phase allows, and its answer picks the next phase (R46, R71, R73). -/
theorem SeqMove.keeps_busConforms (m : SeqMove s t) (hs : s.Consistent) (h : s.BusConforms) : t.BusConforms := by
  cases m with
  | waiting | pendingSend | pendingRecv => exact h
  | send1Ok ret _ q _ c | send1Fail ret _ q _ c =>
    exact busConforms_of_call (.send Config.init1Frame ret) h (by simp [State.busPhase, BusPhase.after, q, c])
  | send2Ok ret _ q _ c | send2Fail ret _ q _ c =>
    exact busConforms_of_call (.send Config.init2Frame ret) h (by simp [State.busPhase, BusPhase.after, q, c])
  | trigOk ret _ q _ c | trigFail ret _ q _ c =>
    exact busConforms_of_call (.send Config.trigFrame ret) h (by simp [State.busPhase, BusPhase.after, q, c])
  | recvOk a _ q | recvFail a _ q =>
    exact busConforms_of_call (.recv Config.nResp a) h (by simp [State.busPhase, BusPhase.after, q])
  | gap q | wait1 q | wait2 q | decoded _ q | keyC _ q | keyZ _ q | absX _ q | absY _ q =>
    exact busConforms_of_no_call h (by simp [State.busPhase, q])
  | synced q =>
    obtain ⟨l, -⟩ := (consistent_of_report (by simp [q])).mp hs
    exact busConforms_of_no_call h (by simp [State.busPhase, q, l])
  | diagnosed _ q =>
    obtain ⟨l, -⟩ := (consistent_of_pDiag q).mp hs
    exact busConforms_of_no_call h (by simp [State.busPhase, q, l])

/-- No command calls the transport, and none leaves the phase. -/
theorem CommandMove.keeps_busConforms (m : CommandMove s t) (h : s.BusConforms) : t.BusConforms := by
  cases m with
  | attach q l | tick q l | detach q l => exact busConforms_of_no_call h (by simp [State.busPhase, q, l])
  | refused q => exact busConforms_of_no_call h (by simp [State.busPhase, q])

/-! ### The sink messages and the place in their batch (R48, R100) -/

/-- One more message moves the place on from where the messages before it led. -/
theorem batchAfterAll_concat (n : Nat) (l : List SinkMessage) (m : SinkMessage) :
    batchAfterAll n (l ++ [m]) = (batchAfterAll n l).bind fun k => batchAfter k m := by
  induction l generalizing n with
  | nil => cases h : batchAfter n m <;> simp [batchAfterAll, h]
  | cons b l ih => cases h : batchAfter n b <;> simp [batchAfterAll, h, ih]

@[simp] theorem batchesWhole_setHost (h : List HostEvent) : (s.setHost h).BatchesWhole ↔ s.BatchesWhole := Iff.rfl

/-- A step without a message keeps the batches where it stays at its place. -/
theorem batchesWhole_of_no_message (h : s.BatchesWhole) (hp : t.batchPlace = s.batchPlace)
    (hm : t.sinkMessages = s.sinkMessages := by simp [State.sinkMessages, Event.sink?]) : t.BatchesWhole := by
  rw [State.BatchesWhole, hm, hp]
  exact h

/-- A step with one message keeps the batches where the message leads from its place to the next. -/
theorem batchesWhole_of_message (m : SinkMessage) (h : s.BatchesWhole)
    (hp : batchAfter s.batchPlace m = some t.batchPlace)
    (hm : t.sinkMessages = s.sinkMessages ++ [m] := by simp [State.sinkMessages, Event.sink?]) : t.BatchesWhole := by
  rw [State.BatchesWhole, hm, batchAfterAll_concat, h]
  exact hp

/-- A zero-extended byte is a byte value (R56, R59). -/
theorem zext_lt (b : Byte) : zext b < 256 := b.isLt

/-- The five report steps emit the next message of the batch each, and no other step emits one (R88, R100). -/
theorem SeqMove.keeps_batchesWhole (m : SeqMove s t) (h : s.BatchesWhole) : t.BatchesWhole := by
  cases m with
  | waiting | pendingSend | pendingRecv => exact h
  | keyC d q => exact batchesWhole_of_message (.reportKey .keyC d.bc) h (by simp [State.batchPlace, batchAfter, q])
  | keyZ d q => exact batchesWhole_of_message (.reportKey .keyZ d.bz) h (by simp [State.batchPlace, batchAfter, q])
  | absX d q =>
    exact batchesWhole_of_message (.reportAbs .absX (zext d.ax)) h
      (by simp [State.batchPlace, batchAfter, q, zext_lt])
  | absY d q =>
    exact batchesWhole_of_message (.reportAbs .absY (zext d.ay)) h
      (by simp [State.batchPlace, batchAfter, q, zext_lt])
  | synced q => exact batchesWhole_of_message .sync h (by simp [State.batchPlace, batchAfter, q])
  | send1Ok _ _ q | send1Fail _ _ q | gap q | send2Ok _ _ q | send2Fail _ _ q | wait1 q | trigOk _ _ q | trigFail _ _ q
  | wait2 q | recvOk _ _ q | recvFail _ _ q | decoded _ q | diagnosed _ q =>
    exact batchesWhole_of_no_message h (by simp [State.batchPlace, q])

/-- No command reports to the sink, and none leaves the place between two batches. -/
theorem CommandMove.keeps_batchesWhole (m : CommandMove s t) (h : s.BatchesWhole) : t.BatchesWhole := by
  cases m with
  | attach q | tick q | detach q | refused q => exact batchesWhole_of_no_message h (by simp [State.batchPlace, q])

/-! ### The events and what stands directly before them (R133, R135) -/

/-- One more event is spaced where it may follow the last one of the list, or what stood before an empty list. -/
theorem spaced_concat (b : Option Event) (l : List Event) (e : Event) :
    spaced b (l ++ [e]) = (spaced b l && mayFollow (l.getLast?.or b) e) := by
  induction l generalizing b with
  | nil => simp [spaced]
  | cons a l ih => cases l <;> simp_all [spaced, Bool.and_assoc, List.getLast?_cons]

/-- What the step at `q` needs directly before it: a settle delay before the trigger and the receive, the first write
before the gap, the gap before the second write (R75, R133, R135). -/
def SeqStep.MayFollow (q : SeqStep) (before : Option Event) : Prop :=
  match q with
  | .rTrig | .rRecv => before.any Event.isSleep = true
  | .hBusy => before.any Event.isFirstWrite = true
  | .hSend2 => before.any Event.isGap = true
  | _ => True

theorem wellSpaced_iff : s.WellSpaced ↔ spaced none s.trace = true ∧ s.seq.MayFollow s.trace.getLast? := Iff.rfl

@[simp] theorem wellSpaced_setHost (h : List HostEvent) : (s.setHost h).WellSpaced ↔ s.WellSpaced := Iff.rfl

theorem mayFollow_init1 (b : Option Event) (ret : Ret) :
    mayFollow b (.transport (.send Config.init1Frame ret)) = true := rfl

theorem mayFollow_gap {b : Option Event} (h : SeqStep.hBusy.MayFollow b) (us : Nat) :
    mayFollow b (.delay (.busyWait us)) = true := h

theorem mayFollow_init2 {b : Option Event} (h : SeqStep.hSend2.MayFollow b) (ret : Ret) :
    mayFollow b (.transport (.send Config.init2Frame ret)) = true := h

theorem mayFollow_trig {b : Option Event} (h : SeqStep.rTrig.MayFollow b) (ret : Ret) :
    mayFollow b (.transport (.send Config.trigFrame ret)) = true := h

theorem mayFollow_recv {b : Option Event} (h : SeqStep.rRecv.MayFollow b) (n : Nat) (a : RecvAnswer) :
    mayFollow b (.transport (.recv n a)) = true := h

/-- One more output keeps the trace spaced where it may follow the last one. -/
theorem spaced_emit {e : Event} (h : spaced none s.trace = true) (he : mayFollow s.trace.getLast? e = true) :
    spaced none (s.emit e).trace = true := by
  rw [State.emit_trace, spaced_concat, h, Option.or_none, he]
  rfl

/-- A settle delay may follow anything (R67, R69). -/
theorem spaced_sleep (h : spaced none s.trace = true) : spaced none s.sleep.trace = true :=
  spaced_emit (e := .delay (.sleep s.timer s.draws)) h rfl

theorem wellSpaced_goto {q : SeqStep} (h : spaced none s.trace = true) (hq : q.MayFollow s.trace.getLast?) :
    (s.goto q).WellSpaced := wellSpaced_iff.mpr ⟨h, hq⟩

/-- An output, and then the step that may follow it. -/
theorem wellSpaced_emit_goto {e : Event} {q : SeqStep} (h : spaced none s.trace = true)
    (he : mayFollow s.trace.getLast? e = true) (hq : q.MayFollow (some e)) : ((s.emit e).goto q).WellSpaced :=
  wellSpaced_goto (spaced_emit h he) (by simpa using hq)

/-- A completion may follow anything, and IDLE needs nothing before it. -/
theorem wellSpaced_complete (c : Completion) (h : spaced none s.trace = true) : (s.complete c).WellSpaced :=
  wellSpaced_iff.mpr ⟨spaced_emit (e := .done c) h rfl, trivial⟩

/-- Each output of the sequencer stands after what its step needs, and is what the next step needs. -/
theorem SeqMove.keeps_wellSpaced (m : SeqMove s t) (h : s.WellSpaced) : t.WellSpaced := by
  obtain ⟨hsp, hlast⟩ := wellSpaced_iff.mp h
  cases m with
  | waiting | pendingSend | pendingRecv => exact h
  | send1Ok _ _ _ _ c =>
    exact wellSpaced_emit_goto (s := s.setSends _) hsp (mayFollow_init1 ..)
      (by simp [SeqStep.MayFollow, Event.isFirstWrite, c])
  | send1Fail => exact wellSpaced_complete _ (spaced_emit (s := s.setSends _) hsp (mayFollow_init1 ..))
  | gap q => exact wellSpaced_emit_goto hsp (mayFollow_gap (q ▸ hlast) _) rfl
  | send2Ok _ _ q | send2Fail _ _ q =>
    exact wellSpaced_complete _ (spaced_emit (s := s.setSends _) hsp (mayFollow_init2 (q ▸ hlast) _))
  | wait1 | wait2 => exact wellSpaced_goto (spaced_sleep hsp) (by simp [SeqStep.MayFollow, Event.isSleep])
  | trigOk _ _ q | trigFail _ _ q =>
    exact wellSpaced_goto (spaced_emit (s := s.setSends _) hsp (mayFollow_trig (q ▸ hlast) _)) trivial
  | recvOk _ _ q | recvFail _ _ q =>
    exact wellSpaced_goto (spaced_emit (s := s.setRecvs _) hsp (mayFollow_recv (q ▸ hlast) _ _)) trivial
  | decoded => exact wellSpaced_goto hsp trivial
  | keyC | keyZ | absX | absY => exact wellSpaced_emit_goto hsp rfl trivial
  | synced | diagnosed => exact wellSpaced_complete _ (spaced_emit hsp rfl)

/-- A command outputs at most its completion, and starts at a step that needs nothing before it. -/
theorem CommandMove.keeps_wellSpaced (m : CommandMove s t) (h : s.WellSpaced) : t.WellSpaced := by
  obtain ⟨hsp, -⟩ := wellSpaced_iff.mp h
  cases m with
  | attach | tick => exact wellSpaced_goto hsp trivial
  | detach | refused => exact wellSpaced_complete _ hsp

/-! ### Turns that issue no call (R46, R75, R135) -/

theorem inBusSection_iff : s.inBusSection = true ↔ s.seq = .hBusy ∨ s.seq = .hSend2 := by simp [State.inBusSection]

/-- A step of the sequencer that is not at a call makes none, and enters no handshake. -/
theorem SeqMove.without_call (m : SeqMove s t) (h : s.aboutToCall = false) :
    t.calls = s.calls ∧ (t.inBusSection = true → s.inBusSection = true) := by
  cases m with
  | waiting | pendingSend | pendingRecv => exact ⟨rfl, id⟩
  | send1Ok _ _ q | send1Fail _ _ q | send2Ok _ _ q | send2Fail _ _ q | trigOk _ _ q | trigFail _ _ q
  | recvOk _ _ q | recvFail _ _ q => simp [State.aboutToCall, q] at h
  | gap q => exact ⟨by simp [State.calls, Event.call?], fun _ => inBusSection_iff.mpr (.inl q)⟩
  | _ => exact ⟨by simp [State.calls, Event.call?], by simp [State.inBusSection]⟩

/-- A command makes no call, and starts before the handshake's section at the most. -/
theorem CommandMove.without_call (m : CommandMove s t) : t.calls = s.calls ∧ t.inBusSection = false := by
  cases m <;> exact ⟨by simp [State.calls, Event.call?], by simp [State.inBusSection]⟩

/-- A step that performs no call, because the engine is at none or the host presents something, adds none to the calls
returned and enters no handshake. -/
theorem step_without_call (e : step s = .next t) (h : s.aboutToCall = true → s.hostQuiet = false) :
    t.calls.length ≤ s.calls.length ∧ (t.inBusSection = true → s.inBusSection = true) := by
  obtain ⟨quiet, m⟩ | ⟨_, rest, -, m, -⟩ | ⟨_, -, -, rfl⟩ := step_cases e
  · have noCall : s.aboutToCall = false := Bool.eq_false_iff.mpr fun hcall => by simp [h hcall] at quiet
    obtain ⟨hcalls, hsection⟩ := m.without_call noCall
    exact ⟨(congrArg List.length hcalls).le, hsection⟩
  · obtain ⟨hcalls, hsection⟩ := m.without_call
    exact ⟨(congrArg List.length hcalls).le, by simp [hsection]⟩
  · exact ⟨Nat.zero_le _, by simp [State.inBusSection]⟩

/-- An engine that the arbiter holds off makes no call in its turn and enters no handshake. -/
theorem State.turn_held_without_call (e : s.turn true = .next t) :
    t.calls.length ≤ s.calls.length ∧ (t.inBusSection = true → s.inBusSection = true) := by
  obtain ⟨-, -, -, waits⟩ | ⟨steps, h⟩ := State.turn_cases true s
  · obtain rfl := Host.Outcome.next.inj (e.symm.trans waits)
    exact ⟨Nat.le_refl _, id⟩
  · exact step_without_call (steps.symm.trans e) (h rfl)

/-- A device that the arbiter holds off, with no call outstanding, has none after its turn, returns none, and does not
come to occupy its bus. -/
theorem Device.turn_held_without_call {d : Device} (h : d.calling = false) :
    (d.turn true).calling = false ∧ (d.turn true).engine.calls.length ≤ d.engine.calls.length ∧
      ((d.turn true).occupiesBus = true → d.occupiesBus = true) := by
  obtain ⟨-, ⟨he, hc, -⟩ | ⟨t, -, ht, e⟩⟩ := Device.turn_cases true d
  · simp [Device.occupiesBus, he, hc, h]
  · obtain ⟨hcalls, hsection⟩ := State.turn_held_without_call ht
    rw [e]
    simpa [Device.occupiesBus, h] using ⟨hcalls, hsection⟩

/-- A call outstanding without an answer does not return in the turn (U12). -/
theorem Device.turn_unanswered_calls {d : Device} (held : Bool) (h : d.engine.callUnanswered = true) :
    (d.turn held).engine.calls = d.engine.calls := by
  obtain ⟨-, ⟨he, -, -⟩ | ⟨t, -, ht, e⟩⟩ := Device.turn_cases held d
  · rw [he]
  · have waits : t = d.engine.setHost d.engine.host.tail := (State.turn_next_cases ht).elim id (step_unanswered h)
    rw [e, waits]
    rfl

theorem Device.turn_bus (held : Bool) (d : Device) : (d.turn held).bus = d.bus :=
  (Device.turn_cases held d).1

/-- What runs after its turn ran before it. -/
theorem Device.running_of_turn {d : Device} {held : Bool} (h : (d.turn held).stop = none) : d.stop = none := by
  by_contra hs
  exact hs (Device.turn_stopped hs held ▸ h)

/-- A running device that occupies the bus, or asserts `bus_hold` where the other does not, keeps the other off (R9). -/
theorem System.heldOff_of_holder {y : System} {i j : Nat} {d e : Device} (hd : y.devices[i]? = some d)
    (he : y.devices[j]? = some e) (n : j ≠ i) (hb : e.bus = d.bus) (hs : e.stop = none) (hc : d.calling = false)
    (ho : e.occupiesBus = true ∨ (e.engine.busHold = true ∧ d.engine.busHold = false)) : y.heldOff i = true :=
  System.heldOff_of_keepsOff he (by simpa [System.keepsOff, hd, he, n, hb, hs, hc] using ho)

/-- While a running device occupies the bus, no other running device of that bus occupies it after its own turn: it did
not before, so it had no call outstanding, and the arbiter holds it off. -/
theorem System.BusExclusive.turn_excluded {y : System} (h : y.BusExclusive) {i j : Nat} {d e : Device}
    (hd : y.devices[i]? = some d) (he : y.devices[j]? = some e) (hij : i ≠ j) (hb : d.bus = e.bus)
    (hrun : (d.turn (y.heldOff i)).stop = none) (hs : e.stop = none) (ho : e.occupiesBus = true) :
    (d.turn (y.heldOff i)).occupiesBus ≠ true := by
  have free : d.occupiesBus ≠ true := fun hocc =>
    h i j d e hd he hij hb (Device.running_of_turn hrun) hs ⟨hocc, ho⟩
  have idle : d.calling = false := Bool.eq_false_iff.mpr fun hc => free (by simp [Device.occupiesBus, hc])
  rw [System.heldOff_of_holder hd he hij.symm hb.symm hs idle (.inl ho)]
  exact mt (Device.turn_held_without_call idle).2.2 free

/-- One device at most takes a turn, and it does not come to occupy a bus that another occupies. -/
theorem System.step_keeps_busExclusive {y : System} (h : y.BusExclusive) : y.step.BusExclusive := by
  obtain ⟨k, hk⟩ := System.step_device y
  rintro i j f g hf hg hij hb hfs hgs ⟨hfo, hgo⟩
  obtain hf | ⟨hik, d, hd, rfl⟩ := hk i f hf <;> obtain hg | ⟨hjk, e, he, rfl⟩ := hk j g hg
  · exact h i j f g hf hg hij hb hfs hgs ⟨hfo, hgo⟩
  · exact h.turn_excluded he hf hij.symm ((e.turn_bus _).symm.trans hb.symm) hgs hfs hfo hgo
  · exact h.turn_excluded hd hg hij ((d.turn_bus _).symm.trans hb) hfs hgs hgo hfo
  · exact hij (hik.trans hjk.symm)

/-! ### The verdict of the validation (R14, R35) -/

/-- Whatever the validation records is negative. -/
theorem classify_err_negative {ret : Ret} {n : Nat} {c : Ret} (h : classify ret n = .err c) : c.toInt < 0 := by
  obtain ⟨-, e⟩ | ⟨hneg, e⟩ | ⟨-, -, e⟩ := classify_cases ret n
  · cases e.symm.trans h
  · cases e.symm.trans h
    exact hneg
  · cases e.symm.trans h
    exact eIO_negative

/-! ### What a table word decodes to, and that it is run from where it is put (log entry 16) -/

/-- The decoder keeps the format: an instruction's own word is in the format of the word it was read from (R51). -/
theorem encode_format_of_decode {e : Encoded} {i : Instr} (h : decode e = .ok i) : (encode i).format = e.format := by
  cases e with
  | cmd c =>
    simp only [decode, decodeCommand] at h
    split at h <;> cases h <;> rfl
  | uop c =>
    simp only [decode, decodeStep] at h
    split at h <;> cases h <;> rfl
  | w1 b =>
    simp only [decode] at h
    split at h <;> cases h
    rfl
  | w2 b0 b1 =>
    simp only [decode] at h
    split_ifs at h <;> cases h <;> rfl
  | r6 r => cases h; rfl
  | op n => cases h; cases n <;> rfl

/-- No bytes are the word of an operation (R51). -/
theorem ofBytes_format_ne_op {f : Format} {bs : List Byte} {e : Encoded} (h : Encoded.ofBytes f bs = .ok e) :
    e.format ≠ .op := by
  unfold Encoded.ofBytes at h
  split at h
  · split at h <;> cases h
    nofun
  · split at h <;> cases h
    nofun
  · cases h; nofun
  · cases h; nofun
  · cases h; nofun
  · cases h
  · cases h

theorem decodeBytes_format_ne_op {f : Format} {bs : List Byte} {i : Instr} (h : decodeBytes f bs = .ok i) :
    (encode i).format ≠ .op := by
  unfold decodeBytes at h
  split at h
  · next e he => exact encode_format_of_decode h ▸ ofBytes_format_ne_op he
  · cases h

theorem firstDecoded_format_ne_op {readings : List (Format × List Byte)} {i : Instr}
    (h : firstDecoded readings = some i) : (encode i).format ≠ .op := by
  induction readings with
  | nil => cases h
  | cons reading rest ih =>
    unfold firstDecoded at h
    split at h
    · next hi => cases h; exact decodeBytes_format_ne_op hi
    · exact ih h

theorem decodeTableWord_format_ne_op {nbits w : Nat} {i : Instr} (h : decodeTableWord nbits w = some i) :
    (encode i).format ≠ .op := by
  unfold decodeTableWord at h
  split at h
  · exact firstDecoded_format_ne_op h
  · cases h

/-- The list of host events that `State.place` leaves presents nothing at the next step. -/
theorem hostQuiet_of_placed (h : t.host = if s.host.isEmpty then [] else .quiet :: s.host) : t.hostQuiet = true := by
  unfold State.hostQuiet
  rw [h]
  cases s.host <;> rfl

/-- The engine made ready for an instruction that has a word runs it at the next step; a frame is run by the step that
carries it. -/
theorem step_readyFor (i : Instr) (s : State) (h : (encode i).format ≠ .op) :
    step (s.readyFor i) = exec i { s.readyFor i with host := (s.readyFor i).host.tail } := by
  obtain ⟨atStep, presented, -⟩ := stepRunsTheDecodedInstruction
  cases i with
  | attach | tick | detach => exact presented _ _ _ s.host rfl rfl
  | trig => exact atStep _ .rTrig (hostQuiet_of_placed (s := s) rfl) rfl
  | init1 => exact atStep _ .hSend1 (hostQuiet_of_placed (s := s) rfl) rfl
  | init2 => exact atStep _ .hSend2 (hostQuiet_of_placed (s := s) rfl) rfl
  | resp => exact atStep _ .rRecv (hostQuiet_of_placed (s := s) rfl) rfl
  | init | readState | decode | poll => exact absurd rfl h
  | _ => exact atStep _ _ (hostQuiet_of_placed (s := s) rfl) rfl

end Sys2Proof.Machine
end

section
/-! The obligations of the memory family. -/

namespace Sys2Proof.Machine

/-- Settles O42: the inversion of the step, and conformance kept by each kind of move; consistency gives LS at the two
steps that end a tick. -/
theorem stepKeepsBusConformance : Obligations.StepKeepsBusConformance := by
  intro s t hs h e
  obtain ⟨-, m⟩ | ⟨_, _, -, m, -⟩ | ⟨_, -, -, rfl⟩ := step_cases e
  · exact m.keeps_busConforms ((consistent_setHost _).mpr hs) ((busConforms_setHost _).mpr h)
  · exact m.keeps_busConforms ((busConforms_setHost _).mpr h)
  · exact busConforms_renewed _

/-- Settles O43: the inversion of the step, and the batches kept by each kind of move. -/
theorem stepKeepsSinkBatchesWhole : Obligations.StepKeepsSinkBatchesWhole := by
  intro s t _ h e
  obtain ⟨-, m⟩ | ⟨_, _, -, m, -⟩ | ⟨_, -, -, rfl⟩ := step_cases e
  · exact m.keeps_batchesWhole ((batchesWhole_setHost _).mpr h)
  · exact m.keeps_batchesWhole ((batchesWhole_setHost _).mpr h)
  · exact batchesWhole_renewed _

/-- Settles O44: the inversion of the step, and the spacing kept by each kind of move. -/
theorem stepKeepsRequiredDelays : Obligations.StepKeepsRequiredDelays := by
  intro s t _ h e
  obtain ⟨-, m⟩ | ⟨_, _, -, m, -⟩ | ⟨_, -, -, rfl⟩ := step_cases e
  · exact m.keeps_wellSpaced ((wellSpaced_setHost _).mpr h)
  · exact m.keeps_wellSpaced ((wellSpaced_setHost _).mpr h)
  · exact wellSpaced_renewed _

/-- Settles O57: the device that takes the turn is held off the bus that another occupies. -/
theorem stepKeepsTheBusExclusive : Obligations.StepKeepsTheBusExclusive :=
  fun _ => System.step_keeps_busExclusive

/-- Settles O58: the other device is held off, or has a call outstanding already, which stays without an answer. -/
theorem noCallEntersAnotherHandshake : Obligations.NoCallEntersAnotherHandshake := by
  intro y i j d e f hij hd he hb hs hholds hcalling hf
  obtain ⟨k, hk⟩ := System.step_device y
  obtain hf | ⟨-, e', he', rfl⟩ := hk j f hf
  · obtain rfl := Option.some.inj (he.symm.trans hf)
    exact ⟨id, Nat.le_refl _⟩
  · obtain rfl := Option.some.inj (he.symm.trans he')
    cases hc : e.calling with
    | true => exact ⟨fun _ => rfl, by rw [Device.turn_unanswered_calls _ (hcalling hc)]⟩
    | false =>
      rw [System.heldOff_of_holder he hd hij hb hs hc hholds]
      obtain ⟨hnone, hcalls, -⟩ := Device.turn_held_without_call hc
      exact ⟨by simp [hnone], hcalls⟩

/-- Settles O24: the three cases of the validation, and that each code it records is negative. -/
theorem classifySeparatesCounts : Obligations.ClassifySeparatesCounts :=
  ⟨⟨rfl, rfl, rfl, rfl⟩, fun _ _ =>
    ⟨classify_match, classify_negative, classify_mismatch, fun _ => classify_err_negative⟩⟩

/-- Settles O35: a table word is no operation's, and every other instruction runs from where it is put. -/
theorem fetchWordIsTheNextInstruction : Obligations.FetchWordIsTheNextInstruction := by
  intro s nbits w i h
  have ready : s.withFetchWord nbits w = s.readyFor i := by simp [State.withFetchWord, h]
  rw [ready]
  exact step_readyFor i s (decodeTableWord_format_ne_op h)

end Sys2Proof.Machine
end

section
/-! The rules the encoding family's proofs share, on words: the decoder against the encoder, against well-formedness, on
bytes and on table numbers. -/

namespace Sys2Proof

/-! ### The decoder against the encoder (R51 to R55, R60, R66) -/

/-- The three fields of byte 5 of a response are read back from their concatenation, and the other bytes are fields
themselves (R55). -/
theorem decodeResp_fields (x y a2 a3 a4 : Byte) (rsv : BitVec 6) (cn zn : BitVec 1) :
    decodeResp ⟨x, y, a2, a3, a4, rsv ++ cn ++ zn⟩ = .resp x y a2 a3 a4 rsv cn zn := by
  have hrsv : (rsv ++ cn ++ zn : BitVec 8).extractLsb' 2 6 = rsv :=
    (BitVec.extractLsb'_append_eq_of_le (by decide)).trans BitVec.extractLsb'_append_eq_left
  have hcn : (rsv ++ cn ++ zn : BitVec 8).extractLsb' 1 1 = cn :=
    (BitVec.extractLsb'_append_eq_of_le (by decide)).trans BitVec.extractLsb'_append_eq_right
  have hzn : (rsv ++ cn ++ zn : BitVec 8).extractLsb' 0 1 = zn := BitVec.extractLsb'_append_eq_right
  simp only [decodeResp, hrsv, hcn, hzn]

/-- Byte 5 of a response is the concatenation of its three fields (R55). -/
theorem append_statusFields (b : Byte) : b.extractLsb' 2 6 ++ b.extractLsb' 1 1 ++ b.extractLsb' 0 1 = b := by
  rw [BitVec.extractLsb'_append_extractLsb'_eq_extractLsb' (by rfl),
    BitVec.extractLsb'_append_extractLsb'_eq_extractLsb' (by rfl)]
  exact BitVec.extractLsb'_eq_self

theorem decode_encode (i : Instr) : decode (encode i) = .ok i := by
  cases i with
  | resp x y a2 a3 a4 rsv cn zn => exact congrArg Except.ok (decodeResp_fields x y a2 a3 a4 rsv cn zn)
  | _ => rfl

theorem encode_of_decode {e : Encoded} {i : Instr} (h : decode e = .ok i) : encode i = e := by
  cases e with
  | cmd c =>
    simp only [decode, decodeCommand] at h
    split at h <;> cases h <;> exact congrArg Encoded.cmd (BitVec.eq_of_toNat_eq (Eq.symm ‹_›))
  | uop c =>
    simp only [decode, decodeStep] at h
    split at h <;> cases h <;> exact congrArg Encoded.uop (BitVec.eq_of_toNat_eq (Eq.symm ‹_›))
  | w1 b =>
    simp only [decode] at h
    split_ifs at h with hb
    cases h
    rw [hb]
    rfl
  | w2 b0 b1 =>
    simp only [decode] at h
    split_ifs at h with h1 h2
    · cases h
      rw [h1.1, h1.2]
      rfl
    · cases h
      rw [h2.1, h2.2]
      rfl
  | r6 r =>
    cases h
    simp only [decodeResp, encode, append_statusFields]
  | op n => cases h; cases n <;> rfl

/-! ### The decoder against well-formedness (R53 to R55, R60, R62, R63) -/

theorem exists_ok_iff_isOk {ε α : Type} {x : Except ε α} : (∃ a, x = .ok a) ↔ x.isOk = true := by
  cases x <;> simp [Except.isOk, Except.toBool]

theorem Encoded.wellFormed_eq_isOk (e : Encoded) : e.wellFormed = (decode e).isOk := by
  cases e with
  | cmd c => revert c; decide
  | uop c => revert c; decide
  | w1 b => by_cases hb : b = 0x00#8 <;> simp [wellFormed, decode, hb, Except.isOk, Except.toBool]
  | w2 b0 b1 =>
    simp only [wellFormed, decode]
    split_ifs with h1 h2
    · simp [h1, Except.isOk, Except.toBool]
    · simp [h2, Except.isOk, Except.toBool]
    · simpa [Except.isOk, Except.toBool] using And.intro (not_and.mp h1) (not_and.mp h2)
  | r6 r => rfl
  | op n => rfl

/-! ### Bytes (R51, R65) -/

/-- A word that has a binary form is read back from its bytes; a code padded to a byte has its other bits clear and is
the byte's low bits (log entry 22). -/
theorem Encoded.ofBytes_bytes {e : Encoded} (h : e.format ≠ .op) : ofBytes e.format e.bytes = .ok e := by
  cases e with
  | cmd c =>
    have hpad : (c.setWidth 8).toNat < 4 := (BitVec.toNat_setWidth_of_le (by decide)).trans_lt c.isLt
    have hback : (c.setWidth 8).setWidth 2 = c :=
      (BitVec.setWidth_setWidth_of_le c (by decide)).trans (BitVec.setWidth_eq c)
    simp only [format, bytes, ofBytes, if_pos hpad, hback]
  | uop c =>
    have hpad : (c.setWidth 8).toNat < 16 := (BitVec.toNat_setWidth_of_le (by decide)).trans_lt c.isLt
    have hback : (c.setWidth 8).setWidth 4 = c :=
      (BitVec.setWidth_setWidth_of_le c (by decide)).trans (BitVec.setWidth_eq c)
    simp only [format, bytes, ofBytes, if_pos hpad, hback]
  | w1 | w2 | r6 => rfl
  | op => exact absurd rfl h

theorem decodeBytes_bytes {e : Encoded} (h : e.format ≠ .op) : decodeBytes e.format e.bytes = decode e := by
  rw [decodeBytes, Encoded.ofBytes_bytes h]

/-! ### Table numbers (R51, R55) -/

/-- A field of a number's low bits is a field of the number. -/
theorem extractLsb'_ofNat {w start len : Nat} (h : start + len ≤ w) (n : Nat) :
    (BitVec.ofNat w n).extractLsb' start len = BitVec.ofNat len (n / 2 ^ start) := by
  apply BitVec.eq_of_toNat_eq
  obtain ⟨d, rfl⟩ := Nat.exists_eq_add_of_le h
  rw [BitVec.extractLsb'_toNat, BitVec.toNat_ofNat, BitVec.toNat_ofNat, Nat.shiftRight_eq_div_pow, Nat.add_assoc,
    Nat.pow_add, Nat.mod_mul_right_div_self, Nat.mod_mod_of_dvd _ (Nat.pow_dvd_pow 2 (Nat.le_add_right len d))]

/-- A 48-bit table word is a response, byte 0 highest. -/
theorem decodeTableWord_resp {w : Nat} (h : w < 2 ^ 48) :
    decodeTableWord 48 w = some (decodeResp
      ⟨tableByte w 5, tableByte w 4, tableByte w 3, tableByte w 2, tableByte w 1, tableByte w 0⟩) := by
  rw [decodeTableWord, if_pos h]
  rfl

end Sys2Proof
end

section
/-! The rules the encoding family's proofs share, on the machine: a send that has returned, a refused command, the
button bits, and a pseudo-operation against its steps one by one. -/

namespace Sys2Proof.Machine

variable {s t : State}

/-- What a send that has returned does, on each of the three verdicts of the validation (R35, R110, R111). -/
theorem sendFrame_verdicts {ret : Ret} {rest : List Ret} (f : List Byte) (w : Running) (go : State → Result)
    (h : s.sends = ret :: rest) :
    (ret.toInt = f.length → sendFrame f w go s = go (s.sent f ret rest)) ∧
    (ret.toInt < 0 → sendFrame f w go s = raiseTransportError w ret (s.sent f ret rest)) ∧
    (0 ≤ ret.toInt → ret.toInt ≠ f.length →
      sendFrame f w go s = raiseTransportError w Config.eIO (s.sent f ret rest)) := by
  rw [sendFrame_returned f w go h]
  exact ⟨fun c => by rw [classify_match c], fun c => by rw [classify_negative c],
    fun c0 c => by rw [classify_mismatch c0 c]⟩

/-! ### Commands that are refused (R98) -/

/-- At IDLE a completion leaves SEQ as it is. -/
theorem complete_of_idle (q : s.seq = .idle) (c : Completion) :
    s.complete c =
      { s with st := c.status, rb := none, ds := none, err := none, trace := s.trace ++ [.done c] } := by
  rw [State.complete, q]

theorem acceptsAttach_eq_false {l : Lifecycle} (h : l ≠ .uninitialized) : acceptsAttach l = false :=
  beq_eq_false_iff_ne.mpr h

theorem acceptsTick_eq_false {l : Lifecycle} (h : l ≠ .polling) : acceptsTick l = false :=
  beq_eq_false_iff_ne.mpr h

theorem acceptsDetach_eq_false {l : Lifecycle} (h : l ≠ .polling) : acceptsDetach l = false :=
  beq_eq_false_iff_ne.mpr h

/-- The reserved code names no command (R63). -/
theorem commandStep_reserved (s : State) : commandStep 0b11#2 s = takeReservedCommand s := rfl

/-! ### The button bits (R82, R83) -/

theorem and_twoPow_beq_zero {w k : Nat} (h : k < w) (x : BitVec w) :
    (x &&& BitVec.twoPow w k == 0#w) = !x.getLsbD k := by
  rw [BitVec.and_twoPow]
  cases x.getLsbD k with
  | false => simp
  | true =>
    have bit : BitVec.twoPow w k ≠ 0#w := fun e => by simpa [h] using congrArg (BitVec.getLsbD · k) e
    simpa using bit

theorem buttonC_eq_not_bit (r : RawResponse) : buttonC r = !r.b5.getLsbD 1 :=
  and_twoPow_beq_zero (k := 1) (by decide) r.b5

theorem buttonZ_eq_not_bit (r : RawResponse) : buttonZ r = !r.b5.getLsbD 0 :=
  and_twoPow_beq_zero (k := 0) (by decide) r.b5

theorem beq_zero_eq_not_bit (b : BitVec 1) : (b == 0#1) = !b.getLsbD 0 := by
  revert b
  decide

/-- The decoding of a response is that of its fields X, Y, CN and ZN (R55, R56). -/
theorem decodeResponse_respBytes (x y a2 a3 a4 : Byte) (rsv : BitVec 6) (cn zn : BitVec 1) :
    decodeResponse (respBytes x y a2 a3 a4 rsv cn zn) = ⟨x, y, cn == 0#1, zn == 0#1⟩ := by
  have hcn : (rsv ++ cn ++ zn : BitVec 8).getLsbD 1 = cn.getLsbD 0 := by
    simp only [BitVec.getLsbD_append]
    rfl
  have hzn : (rsv ++ cn ++ zn : BitVec 8).getLsbD 0 = zn.getLsbD 0 := by
    simp only [BitVec.getLsbD_append]
    rfl
  rw [decodeResponse, buttonC_eq_not_bit, buttonZ_eq_not_bit, respBytes, hcn, hzn, ← beq_zero_eq_not_bit,
    ← beq_zero_eq_not_bit]
  rfl

/-! ### A pseudo-operation is its steps one by one (R66) -/

/-- What the engine does at each value of SEQ while nothing is presented (R60, R86). -/
def SeqStep.perform : SeqStep → State → Result
  | .idle => .next
  | .hSend1 => execHSend1
  | .hBusy => execHBusy
  | .hSend2 => execHSend2
  | .rWait1 => execRWait1
  | .rTrig => execRTrig
  | .rWait2 => execRWait2
  | .rRecv => execRRecv
  | .pDecode => execPDecode
  | .pKeyC => execPKeyC
  | .pKeyZ => execPKeyZ
  | .pAbsX => execPAbsX
  | .pAbsY => execPAbsY
  | .pSync => execPSync
  | .pDiag => execPDiag

theorem sequencerStep_eq_perform (s : State) : sequencerStep s = s.seq.perform s := by
  unfold sequencerStep
  rw [atStep_eq]
  cases s.seq <;> rfl

/-- The pseudo-operation made of the given steps. -/
def performAll (l : List SeqStep) : List (SeqStep × (State → Result)) := l.map fun q => (q, q.perform)

/-- A pseudo-operation none of whose steps the sequencer is at does nothing. -/
theorem runExpansion_performAll_of_not_mem {l : List SeqStep} (h : s.seq ∉ l) :
    runExpansion (performAll l) s = .next s := by
  induction l with
  | nil => rfl
  | cons q l ih => exact (runExpansion_skip (List.ne_of_not_mem_cons h)).trans (ih (List.not_mem_of_not_mem_cons h))

/-- A pseudo-operation stays where the sequencer's own step does. -/
theorem runExpansion_performAll_stays {l : List SeqStep} (h : sequencerStep s = .next s) :
    runExpansion (performAll l) s = .next s := by
  induction l with
  | nil => rfl
  | cons q l ih =>
    by_cases hq : s.seq = q
    · have perform : q.perform s = .next s := by rw [← hq, ← sequencerStep_eq_perform, h]
      exact (runExpansion_at hq perform).trans ih
    · exact (runExpansion_skip hq).trans ih

/-- The steps to which SEQ can move on from a step (R11, R66). -/
def SeqStep.successors : SeqStep → List SeqStep
  | .idle => []
  | .hSend1 => [.hBusy, .idle]
  | .hBusy => [.hSend2]
  | .hSend2 => [.idle]
  | .rWait1 => [.rTrig]
  | .rTrig => [.rWait2, .pDiag]
  | .rWait2 => [.rRecv]
  | .rRecv => [.pDecode, .pDiag]
  | .pDecode => [.pKeyC]
  | .pKeyC => [.pKeyZ]
  | .pKeyZ => [.pAbsX]
  | .pAbsX => [.pAbsY]
  | .pAbsY => [.pSync]
  | .pSync => [.idle]
  | .pDiag => [.idle]

/-- A step of the sequencer stays, its call not having returned, or moves SEQ on. -/
theorem SeqMove.stays_or_moves_on (m : SeqMove s t) : t = s ∨ t.seq ∈ s.seq.successors := by
  cases m with
  | waiting | pendingSend | pendingRecv => exact .inl rfl
  | send1Ok _ _ q | send1Fail _ _ q | gap q | send2Ok _ _ q | send2Fail _ _ q | wait1 q | trigOk _ _ q
  | trigFail _ _ q | wait2 q | recvOk _ _ q | recvFail _ _ q | decoded _ q | keyC _ q | keyZ _ q | absX _ q
  | absY _ q | synced q | diagnosed _ q => simp [q, SeqStep.successors]

theorem SeqMove.host (m : SeqMove s t) : t.host = s.host := by cases m <;> rfl

/-- How many steps at the most take SEQ to IDLE, each call returning at once. -/
def SeqStep.stepsLeft : SeqStep → Nat
  | .idle => 0
  | .hSend1 => 3
  | .hBusy => 2
  | .hSend2 => 1
  | .rWait1 => 10
  | .rTrig => 9
  | .rWait2 => 8
  | .rRecv => 7
  | .pDecode => 6
  | .pKeyC => 5
  | .pKeyZ => 4
  | .pAbsX => 3
  | .pAbsY => 2
  | .pSync => 1
  | .pDiag => 1

theorem SeqStep.stepsLeft_lt_of_mem_successors (q : SeqStep) : ∀ q' ∈ q.successors, q'.stepsLeft < q.stepsLeft := by
  cases q <;> decide

theorem SeqStep.stepsLeft_pos {q : SeqStep} (h : q ≠ .idle) : 0 < q.stepsLeft := by
  cases q with
  | idle => exact absurd rfl h
  | _ => decide

/-- From each step of the list SEQ moves on to a later one of it or to IDLE. -/
def inOrder : List SeqStep → Bool
  | [] => true
  | q :: l => q.successors.all (fun q' => q' == .idle || l.contains q') && inOrder l

theorem step_of_no_host (h : s.host = []) : step s = sequencerStep s := by rw [step_eq, h]

/-- A run with a host that presents nothing stays where its first step does. -/
theorem runSteps_stays (h : s.host = []) (e : sequencerStep s = .next s) (k : Nat) : runSteps k s = .next s := by
  induction k with
  | zero => rfl
  | succ k ih => rw [runSteps_next ((step_of_no_host h).trans e), ih]

/-- The step a pseudo-operation is at is the run's first step. -/
theorem runSteps_performAll {q : SeqStep} {l : List SeqStep} {k : Nat} (h : s.host = []) (hq : s.seq = q)
    (next : ∀ t, sequencerStep s = .next t → runSteps k t = runExpansion (performAll l) t) :
    runSteps (k + 1) s = runExpansion (performAll (q :: l)) s := by
  have perform : sequencerStep s = q.perform s := hq ▸ sequencerStep_eq_perform s
  rw [runSteps_succ, step_of_no_host h, perform, performAll, List.map_cons, runExpansion, if_pos hq]
  cases e : q.perform s with
  | next t => exact next t (perform.trans e)
  | fault | refused => rfl

/-- A pseudo-operation whose steps stand in order is its steps one by one, with a host that presents nothing. -/
theorem runSteps_eq_runExpansion {l : List SeqStep} (order : inOrder l = true) {k : Nat} (h : s.host = [])
    (hk : s.seq.stepsLeft ≤ k) (hs : s.seq ∈ l ∨ sequencerStep s = .next s) :
    runSteps k s = runExpansion (performAll l) s := by
  induction l generalizing s k with
  | nil => exact runSteps_stays h (hs.resolve_left List.not_mem_nil) k
  | cons q l ih =>
    by_cases stays : sequencerStep s = .next s
    · rw [runSteps_stays h stays, runExpansion_performAll_stays stays]
    have hmem : s.seq ∈ q :: l := hs.resolve_right stays
    rw [inOrder, Bool.and_eq_true, List.all_eq_true] at order
    obtain ⟨hnext, order⟩ := order
    by_cases hq : s.seq = q
    · have pos : 0 < s.seq.stepsLeft := SeqStep.stepsLeft_pos fun idle => stays (sequencerStep_idle idle)
      obtain ⟨k, rfl⟩ := Nat.exists_eq_add_one.mpr (pos.trans_le hk)
      refine runSteps_performAll h hq fun t e => ?_
      have m := sequencerStep_move e
      obtain rfl | moved := m.stays_or_moves_on
      · exact absurd e stays
      have fewer := s.seq.stepsLeft_lt_of_mem_successors t.seq moved
      have later : t.seq = .idle ∨ t.seq ∈ l := by simpa using hnext t.seq (hq ▸ moved)
      exact ih order (m.host.trans h) (by omega) (later.symm.imp_right sequencerStep_idle)
    · exact (ih order h hk (.inl ((List.mem_cons.mp hmem).resolve_left hq))).trans (runExpansion_skip hq).symm

/-- The same, entered at its first step. -/
theorem runSteps_goto_eq_runExpansion {q : SeqStep} {l : List SeqStep} {k : Nat} (order : inOrder (q :: l) = true)
    (hk : q.stepsLeft ≤ k) (h : s.host = []) :
    runSteps k (s.goto q) = runExpansion (performAll (q :: l)) (s.goto q) :=
  runSteps_eq_runExpansion order h hk (.inl List.mem_cons_self)

/-- From R_TRIG, with a trigger that is accepted or never answered, READ_STATE is three more steps (R71). -/
theorem runSteps_trigger_accepted (q : s.seq = .rTrig) (h : s.host = [])
    (ok : ∀ a rs, s.sends = a :: rs → a.toInt = 1) :
    runSteps 3 s = runExpansion (performAll [.rTrig, .rWait2, .rRecv]) s := by
  refine runSteps_performAll h q fun t e => ?_
  have trig : execRTrig s = .next t := by rw [← e, sequencerStep_eq_perform, q]; rfl
  obtain ⟨-, rfl⟩ | ⟨a, rs, hs, ⟨-, accepted⟩ | ⟨c, -⟩⟩ := sendFrame_cases trig
  · rw [runSteps_stays h e, runExpansion_performAll_of_not_mem (by simp [q])]
  · cases accepted
    refine runSteps_performAll h rfl fun u e => ?_
    cases e
    exact runSteps_performAll h rfl fun _ _ => rfl
  · exact absurd (ok a rs hs) c

/-- From R_TRIG, with a trigger that fails, READ_STATE is one more step, and ends where P_DIAG would begin (R71,
R110). -/
theorem runSteps_trigger_failed {a : Ret} {rs : List Ret} (q : s.seq = .rTrig) (h : s.host = [])
    (hs : s.sends = a :: rs) (c : a.toInt ≠ 1) :
    runSteps 1 s = runExpansion (performAll [.rTrig, .rWait2, .rRecv]) s := by
  refine runSteps_performAll h q fun t e => ?_
  have trig : execRTrig s = .next t := by rw [← e, sequencerStep_eq_perform, q]; rfl
  obtain ⟨hs', -⟩ | ⟨a', rs', hs', ⟨c', -⟩ | ⟨-, failed⟩⟩ := sendFrame_cases trig
  · cases hs.symm.trans hs'
  · cases hs.symm.trans hs'
    exact absurd c' c
  · cases failed
    exact (runExpansion_performAll_of_not_mem (by simp)).symm

/-- READ_STATE sleeps, and goes on as its steps from R_TRIG do (R71). -/
theorem runSteps_readState {k : Nat} (h : s.host = [])
    (trigger : ∀ t : State, t.seq = .rTrig → t.host = [] → t.sends = s.sends →
      runSteps k t = runExpansion (performAll [.rTrig, .rWait2, .rRecv]) t) :
    runSteps (k + 1) (s.goto .rWait1) = execReadState s := by
  refine runSteps_performAll (s := s.goto .rWait1) (l := [.rTrig, .rWait2, .rRecv]) h rfl fun t e => ?_
  cases e
  exact trigger _ rfl h rfl

end Sys2Proof.Machine
end

section
/-! The obligations of the encoding family. -/

namespace Sys2Proof.Machine

/-- Settles O2: each of the decoder and the encoder undoes the other. -/
theorem decodeIsTheInverseOfEncode : Obligations.DecodeIsTheInverseOfEncode :=
  fun _ i => ⟨fun h => (encode_of_decode h).symm, fun h => h ▸ decode_encode i⟩

/-- Settles O3: well-formedness is the test whether the decoder accepts. -/
theorem wellFormedWordsAreThoseThatDecode : Obligations.WellFormedWordsAreThoseThatDecode := by
  intro e
  rw [exists_ok_iff_isOk, e.wellFormed_eq_isOk]

/-- Settles O4: the bytes of a word are decoded as the word, and the encoding decodes to its instruction. -/
theorem bytesDecodeToTheirInstruction : Obligations.BytesDecodeToTheirInstruction :=
  fun i h => (decodeBytes_bytes h).trans (decode_encode i)

/-- Settles O5: a field of a byte of the number is a field of the number. -/
theorem respFieldsStandWhereTheTableSays : Obligations.RespFieldsStandWhereTheTableSays := by
  intro w h
  rw [decodeTableWord_resp h, decodeResp]
  simp only [tableByte]
  rw [extractLsb'_ofNat (by decide), extractLsb'_ofNat (by decide), extractLsb'_ofNat (by decide)]
  norm_num

/-- Settles O49: POLL and INIT stand in order and end at IDLE; READ_STATE divides at its trigger; DECODE is one step. -/
theorem operationsRefineTheirSteps : Obligations.OperationsRefineTheirSteps := by
  intro s h
  refine ⟨?_, ?_, ?_, fun ok => ?_, fun a rs hs c => ?_⟩
  · have order : inOrder (pollSteps.map Prod.fst) = true := by decide
    exact runSteps_goto_eq_runExpansion order (by decide) h
  · have order : inOrder (initSteps.map Prod.fst) = true := by decide
    exact runSteps_goto_eq_runExpansion order (by decide) h
  · exact runSteps_performAll (s := s.goto .pDecode) (l := []) h rfl fun _ _ => rfl
  · exact runSteps_readState h fun t q ht same => runSteps_trigger_accepted q ht (same ▸ ok)
  · exact runSteps_readState h fun t q ht same => runSteps_trigger_failed q ht (same.trans hs) c

/-- Settles O1: each word is closed and the decoder evaluates on it. -/
theorem specWordsDecode : Obligations.SpecWordsDecode := by
  unfold Obligations.SpecWordsDecode
  decide

/-- Settles O9: the two numbers of a kind differ for every value of the free constants. -/
theorem sinkIdentifiersAreDistinct : Obligations.SinkIdentifiersAreDistinct :=
  ⟨distinctPair_ne _ _ _, distinctPair_ne _ _ _⟩

/-- Settles O12: each is presented at IDLE to a lifecycle that does not accept it. -/
theorem refusedCommandsChangeOnlyStatus : Obligations.RefusedCommandsChangeOnlyStatus := by
  intro s q refusedState
  have refused : s.complete .refused = refusedState := complete_of_idle q .refused
  refine ⟨fun l => ?_, fun l => ?_, fun l => ?_, fun rest hh => ?_⟩
  · rw [exec, execAttach, acceptsAttach_eq_false l, takeCommand_refused _ q, refused]
  · rw [exec, execTick, acceptsTick_eq_false l, takeCommand_refused _ q, refused]
  · rw [exec, execDetach, acceptsDetach_eq_false l, takeCommand_refused _ q, refused]
  · have q' : (s.setHost rest).seq = .idle := q
    rw [step_command hh, commandStep_reserved, takeReservedCommand, takeCommand_refused _ q', complete_of_idle q']
    rfl

/-- Settles O14: both are one send of INIT1 in ATTACH, on the three verdicts of the validation. -/
theorem firstHandshakeWrite : Obligations.FirstHandshakeWrite := by
  refine ⟨rfl, fun i s ret rest hi hs => ?_⟩
  have send : exec i s = sendFrame Config.init1Frame .attach (fun t => .next (t.goto .hBusy)) s := by
    rcases hi with rfl | rfl <;> rfl
  rw [send]
  exact sendFrame_verdicts Config.init1Frame .attach _ hs

/-- Settles O19: both are one send of TRIG in a tick, on the three verdicts of the validation. -/
theorem triggerWrite : Obligations.TriggerWrite := by
  refine ⟨rfl, fun i s ret rest hi hs => ?_⟩
  have send : exec i s = sendFrame Config.trigFrame .tick (fun t => .next (t.goto .rWait2)) s := by
    rcases hi with rfl | rfl <;> rfl
  rw [send]
  exact sendFrame_verdicts Config.trigFrame .tick _ hs

/-- Settles O21: the receive of six bytes is accepted, and its decoding is that of the fields. -/
theorem responseFrameIsTakenInAndDecoded : Obligations.ResponseFrameIsTakenInAndDecoded := by
  intro x y a2 a3 a4 rsv cn zn s raw taken
  have six : classify 6#32 Config.nResp = .ok := classify_match (by decide)
  have filled : taken.rb = some (respBytes x y a2 a3 a4 rsv cn zn) := rfl
  constructor
  · rw [exec, execResp, acceptResponse, six]
    rfl
  · rw [exec, execPDecode, readRb_some filled, decodeResponse_respBytes]
    rfl

end Sys2Proof.Machine
end

section
/-! The rules the register-protocol family's proofs share: the code a failed validation records, the trigger and the
receive on the two sides of their validation, READ_STATE and POLL on their three ways through, and a quiet step. -/

namespace Sys2Proof.Machine

variable {s t : State} {a : Ret} {rs : List Ret} {b : RecvAnswer} {rr : List RecvAnswer}

/-! ### Failed validations (R35) -/

/-- What holds of the code a failed validation records holds of a negative return itself, and of E_IO for a count. -/
theorem failCode_verdicts {ret : Ret} {n : Nat} (P : Ret → Prop) (h : ret.toInt ≠ n → P (failCode ret)) :
    (ret.toInt < 0 → P ret) ∧ (0 ≤ ret.toInt → ret.toInt ≠ n → P Config.eIO) := by
  refine ⟨fun neg => ?_, fun nonneg ne => ?_⟩
  · have own : failCode ret = ret := if_pos neg
    exact own ▸ h (by omega)
  · have generic : failCode ret = Config.eIO := if_neg (Int.not_lt.mpr nonneg)
    exact generic ▸ h ne

/-- States are compared field by field, so that the laws of each update settle an equation between them. -/
theorem state_eq_iff :
    s = t ↔
      s.ls = t.ls ∧ s.seq = t.seq ∧ s.rb = t.rb ∧ s.ds = t.ds ∧ s.err = t.err ∧ s.st = t.st ∧ s.host = t.host ∧
      s.sends = t.sends ∧ s.recvs = t.recvs ∧ s.timer = t.timer ∧ s.draws = t.draws ∧ s.trace = t.trace := by
  cases s
  cases t
  simp

/-! ### The trigger and the receive (R68, R70) -/

theorem execRTrig_accepted (hs : s.sends = a :: rs) (c : a.toInt = 1) :
    execRTrig s = .next ((s.sent Config.trigFrame a rs).goto .rWait2) := by
  rw [execRTrig, sendFrame_returned _ _ _ hs, classify_match (n := Config.trigFrame.length) c]

theorem execRTrig_failed (hs : s.sends = a :: rs) (c : a.toInt ≠ 1) :
    execRTrig s = .next (((s.sent Config.trigFrame a rs).setErr (failCode a)).goto .pDiag) := by
  rw [execRTrig, sendFrame_returned _ _ _ hs, classify_fail (n := Config.trigFrame.length) c]
  exact raise_tick _ _

theorem execRRecv_accepted (hr : s.recvs = b :: rr) (c : b.ret.toInt = 6) :
    execRRecv s = .next (((s.received b rr).setRb b.data).goto .pDecode) := by
  rw [execRRecv, memRead_returned _ hr, acceptResponse, classify_match (n := Config.nResp) c]

theorem execRRecv_failed (hr : s.recvs = b :: rr) (c : b.ret.toInt ≠ 6) :
    execRRecv s = .next (((s.received b rr).setErr (failCode b.ret)).goto .pDiag) := by
  rw [execRRecv, memRead_returned _ hr, acceptResponse, classify_fail (n := Config.nResp) c]
  exact raise_tick _ _

/-! ### READ_STATE (R71) -/

/-- After the first settle delay and a trigger that has returned `a`. -/
abbrev State.asked (a : Ret) (rs : List Ret) (s : State) : State := s.sleep.sent Config.trigFrame a rs

/-- After both settle delays, a trigger that has returned `a` and a receive that has returned `b`. -/
abbrev State.answered (a : Ret) (rs : List Ret) (b : RecvAnswer) (rr : List RecvAnswer) (s : State) : State :=
  (s.asked a rs).sleep.received b rr

/-- A failed trigger leaves the sequencer at P_DIAG, past the rest of READ_STATE. -/
theorem execReadState_trigger_failed (hs : s.sends = a :: rs) (c : a.toInt ≠ 1) :
    execReadState s = .next (((s.asked a rs).setErr (failCode a)).goto .pDiag) := by
  have trigger : execRTrig (s.sleep.goto .rTrig) = .next (((s.asked a rs).setErr (failCode a)).goto .pDiag) :=
    execRTrig_failed hs c
  calc execReadState s
    _ = runExpansion (performAll [.rTrig, .rWait2, .rRecv]) (s.sleep.goto .rTrig) := runExpansion_at rfl rfl
    _ = runExpansion (performAll [.rWait2, .rRecv]) (((s.asked a rs).setErr (failCode a)).goto .pDiag) :=
      runExpansion_at rfl trigger
    _ = _ := runExpansion_performAll_of_not_mem (by simp)

/-- After an accepted trigger READ_STATE sleeps again and ends as its receive does. -/
theorem execReadState_trigger_accepted (hs : s.sends = a :: rs) (c : a.toInt = 1)
    (recv : execRRecv ((s.asked a rs).sleep.goto .rRecv) = .next t) : execReadState s = .next t := by
  have trigger : execRTrig (s.sleep.goto .rTrig) = .next ((s.asked a rs).goto .rWait2) := execRTrig_accepted hs c
  calc execReadState s
    _ = runExpansion (performAll [.rTrig, .rWait2, .rRecv]) (s.sleep.goto .rTrig) := runExpansion_at rfl rfl
    _ = runExpansion (performAll [.rWait2, .rRecv]) ((s.asked a rs).goto .rWait2) := runExpansion_at rfl trigger
    _ = runExpansion (performAll [.rRecv]) ((s.asked a rs).sleep.goto .rRecv) := runExpansion_at rfl rfl
    _ = runExpansion [] t := runExpansion_at rfl recv

theorem execReadState_receive_accepted (hs : s.sends = a :: rs) (ca : a.toInt = 1) (hr : s.recvs = b :: rr)
    (cb : b.ret.toInt = 6) :
    execReadState s = .next (((s.answered a rs b rr).setRb b.data).goto .pDecode) :=
  execReadState_trigger_accepted hs ca (execRRecv_accepted hr cb)

theorem execReadState_receive_failed (hs : s.sends = a :: rs) (ca : a.toInt = 1) (hr : s.recvs = b :: rr)
    (cb : b.ret.toInt ≠ 6) :
    execReadState s = .next (((s.answered a rs b rr).setErr (failCode b.ret)).goto .pDiag) :=
  execReadState_trigger_accepted hs ca (execRRecv_failed hr cb)

/-! ### POLL (R88) -/

/-- The first part of a pseudo-operation hands its state on to the rest. -/
theorem runExpansion_append {l : List (SeqStep × (State → Result))} (h : runExpansion l s = .next t)
    (rest : List (SeqStep × (State → Result))) : runExpansion (l ++ rest) s = runExpansion rest t := by
  induction l generalizing s with
  | nil => cases h; rfl
  | cons step l ih =>
    obtain ⟨q, p⟩ := step
    by_cases hq : s.seq = q
    · rw [runExpansion, if_pos hq] at h
      cases hp : p s with
      | next u =>
        rw [hp] at h
        exact (runExpansion_at hq hp).trans (ih h)
      | fault | refused => rw [hp] at h; cases h
    · rw [runExpansion_skip hq] at h
      exact (runExpansion_skip hq).trans (ih h)

/-- POLL is READ_STATE, and from where that ends DECODE and REPORT, and P_DIAG. -/
theorem execPoll_of_read (h : execReadState s = .next t) :
    execPoll s =
      runExpansion (performAll [.pDecode, .pKeyC, .pKeyZ, .pAbsX, .pAbsY, .pSync] ++ performAll [.pDiag]) t :=
  runExpansion_append h _

/-- After a failed read POLL passes the report over: one diagnostic, and the tick completes (R95, R110). -/
theorem execPoll_failed_read {c : Ret} (h : execReadState s = .next t) (q : t.seq = .pDiag) (e : t.err = some c) :
    execPoll s = .next ((t.emit (.diag c)).complete .ok) := by
  calc execPoll s
    _ = _ := execPoll_of_read h
    _ = runExpansion (performAll [.pDiag]) t :=
      runExpansion_append (runExpansion_performAll_of_not_mem (by simp [q])) _
    _ = runExpansion [] ((t.emit (.diag c)).complete .ok) := runExpansion_at q (returnFromError_some e)

theorem execPKeyC_reports {d : DecodedState} (h : s.ds = some d) :
    execPKeyC s = .next ((s.emit (.sink (.reportKey .keyC d.bc))).goto .pKeyZ) := readDs_some h _

theorem execPKeyZ_reports {d : DecodedState} (h : s.ds = some d) :
    execPKeyZ s = .next ((s.emit (.sink (.reportKey .keyZ d.bz))).goto .pAbsX) := readDs_some h _

theorem execPAbsX_reports {d : DecodedState} (h : s.ds = some d) :
    execPAbsX s = .next ((s.emit (.sink (.reportAbs .absX (zext d.ax)))).goto .pAbsY) := readDs_some h _

theorem execPAbsY_reports {d : DecodedState} (h : s.ds = some d) :
    execPAbsY s = .next ((s.emit (.sink (.reportAbs .absY (zext d.ay)))).goto .pSync) := readDs_some h _

/-- After the five messages of a decoded state, in the one order (R88). -/
def State.reported (d : DecodedState) (s : State) : State :=
  ((((s.emit (.sink (.reportKey .keyC d.bc))).emit (.sink (.reportKey .keyZ d.bz))).emit
    (.sink (.reportAbs .absX (zext d.ax)))).emit (.sink (.reportAbs .absY (zext d.ay)))).emit (.sink .sync)

/-- The messages of a decoded response, by the bits its fields stand at (R80 to R83). -/
theorem reported_decodeResponse_trace (r : RawResponse) (s : State) :
    (s.reported (decodeResponse r)).trace =
      s.trace ++
        [.sink (.reportKey .keyC (!r.b5.getLsbD 1)), .sink (.reportKey .keyZ (!r.b5.getLsbD 0)),
         .sink (.reportAbs .absX r.b0.toNat), .sink (.reportAbs .absY r.b1.toNat), .sink .sync] := by
  rw [← buttonC_eq_not_bit, ← buttonZ_eq_not_bit]
  simp [State.reported, decodeResponse, zext, axisX, axisY]

/-- After a successful read POLL decodes, reports the batch and completes the tick; P_DIAG is passed over (R89 to R94). -/
theorem execPoll_successful_read {r : RawResponse} (h : execReadState s = .next t) (q : t.seq = .pDecode)
    (hr : t.rb = some r) : execPoll s = .next ((t.reported (decodeResponse r)).complete .ok) := by
  have decoded : execPDecode t = .next ((t.setDs (decodeResponse r)).goto .pKeyC) := readRb_some hr _
  calc execPoll s
    _ = _ := execPoll_of_read h
    _ = _ := runExpansion_at q decoded
    _ = _ := runExpansion_at rfl (execPKeyC_reports rfl)
    _ = _ := runExpansion_at rfl (execPKeyZ_reports rfl)
    _ = _ := runExpansion_at rfl (execPAbsX_reports rfl)
    _ = _ := runExpansion_at rfl (execPAbsY_reports rfl)
    _ = _ := runExpansion_at rfl rfl
    _ = _ := runExpansion_skip nofun

/-! ### Steps of a run -/

/-- An accepted TICK starts at R_WAIT1 (R86). -/
theorem step_tick {rest : List HostEvent} (q : s.seq = .idle) (l : s.ls = .polling)
    (h : s.host = .command 0b01#2 :: rest) : step s = .next ((s.setHost rest).goto .rWait1) := by
  have accepts : acceptsTick (s.setHost rest).ls = true := by simp [acceptsTick, l]
  have idle : (s.setHost rest).seq = .idle := q
  rw [step_command h, commandStep_decoded (i := .tick) rfl, exec, execTick, accepts, takeCommand_accepted _ idle]

/-- At a quiet event a run performs the step SEQ is at. -/
theorem runSteps_quiet {k : Nat} {rest : List HostEvent} (q : SeqStep) (hq : s.seq = q) (h : s.host = .quiet :: rest)
    (perform : q.perform (s.setHost rest) = .next t) : runSteps (k + 1) s = runSteps k t := by
  have performs : step s = q.perform (s.setHost rest) := by
    rw [step_eq, h, ← hq]
    exact sequencerStep_eq_perform _
  exact runSteps_next (performs.trans perform)

/-- An accepted TICK comes to R_TRIG with the first settle delay done, in two steps. -/
theorem runSteps_tick {k : Nat} {rest : List HostEvent} (q : s.seq = .idle) (l : s.ls = .polling)
    (h : s.host = .command 0b01#2 :: .quiet :: rest) :
    runSteps (k + 2) s = runSteps k ((s.setHost rest).sleep.goto .rTrig) := by
  rw [runSteps_next (step_tick q l h)]
  exact runSteps_quiet .rWait1 rfl rfl rfl

/-- The last step of a tick that failed: P_DIAG (R113). -/
theorem runSteps_diag {k : Nat} {c : Ret} {rest : List HostEvent} (q : s.seq = .pDiag) (e : s.err = some c)
    (h : s.host = .quiet :: rest) :
    runSteps (k + 1) s = runSteps k (((s.setHost rest).emit (.diag c)).complete .ok) :=
  runSteps_quiet .pDiag q h (returnFromError_some e)

end Sys2Proof.Machine
end

section
/-! The obligations of the register-protocol family. -/

namespace Sys2Proof.Machine

/-- Settles O45: the two settle delays each draw the next number, and no other step draws. -/
theorem stepKeepsDrawsFresh : Obligations.StepKeepsDrawsFresh :=
  fun _ _ h e => step_keeps_drawsFresh e h

/-- Settles O22: READ_STATE on its three ways through; a failed validation has two codes. -/
theorem readStateOperation : Obligations.ReadStateOperation := by
  intro s a rs hs asked
  have trigger := failCode_verdicts (fun c => exec .readState s = .next { asked with err := some c }) fun ca =>
    (execReadState_trigger_failed hs ca).trans (by simp [state_eq_iff, asked, Config.trigFrame])
  obtain ⟨negative, mismatch⟩ := trigger
  refine ⟨negative, mismatch, fun ca b rr hr => ?_⟩
  intro received
  refine ⟨fun cb => ?_, ?_⟩
  · exact (execReadState_receive_accepted hs ca hr cb).trans
      (by simp [state_eq_iff, received, asked, Config.trigFrame, Config.nResp])
  · exact failCode_verdicts (fun c => exec .readState s = .next { received with err := some c }) fun cb =>
      (execReadState_receive_failed hs ca hr cb).trans
        (by simp [state_eq_iff, received, asked, Config.trigFrame, Config.nResp])

/-- Settles O31: POLL after a failed read, and after a successful one. -/
theorem pollOperation : Obligations.PollOperation := by
  intro s a rs hs asked ended
  have trigger := failCode_verdicts (fun c => exec .poll s = .next (ended s.recvs 1 (asked ++ [.diag c]))) fun ca =>
    (execPoll_failed_read (execReadState_trigger_failed hs ca) rfl rfl).trans
      (by simp [state_eq_iff, Completion.status, ended, asked, Config.trigFrame])
  obtain ⟨negative, mismatch⟩ := trigger
  refine ⟨negative, mismatch, fun ca b rr hr => ?_⟩
  intro both batch
  refine ⟨fun cb => ?_, ?_⟩
  · refine (execPoll_successful_read (execReadState_receive_accepted hs ca hr cb) rfl rfl).trans ?_
    rw [Host.Outcome.next.injEq, state_eq_iff, State.complete_trace, reported_decodeResponse_trace]
    simp [State.reported, Completion.status, ended, batch, both, asked, Config.trigFrame, Config.nResp]
  · exact failCode_verdicts (fun c => exec .poll s = .next (ended rr 2 (both ++ [.diag c]))) fun cb =>
      (execPoll_failed_read (execReadState_receive_failed hs ca hr cb) rfl rfl).trans
        (by simp [state_eq_iff, Completion.status, ended, both, asked, Config.trigFrame, Config.nResp])

/-- Settles O48: the run of a TICK, step by step, to the failing call and the P_DIAG after it. -/
theorem tickSkipsAFailedRead : Obligations.TickSkipsAFailedRead := by
  intro s a rs more q l hs code
  refine ⟨fun hh ca => ?_, fun hh ca b rr hr cb => ?_⟩
  · calc runSteps 4 s
      _ = _ := runSteps_tick q l hh
      _ = _ := runSteps_quiet .rTrig rfl rfl (execRTrig_failed hs ca)
      _ = _ := runSteps_diag rfl rfl rfl
      _ = _ := by simp [state_eq_iff, Completion.status, code, Config.trigFrame]
  · calc runSteps 6 s
      _ = _ := runSteps_tick q l hh
      _ = _ := runSteps_quiet .rTrig rfl rfl (execRTrig_accepted hs ca)
      _ = _ := runSteps_quiet .rWait2 rfl rfl rfl
      _ = _ := runSteps_quiet .rRecv rfl rfl (execRRecv_failed hr cb)
      _ = _ := runSteps_diag rfl rfl rfl
      _ = _ := by simp [state_eq_iff, Completion.status, code, Config.trigFrame, Config.nResp]

/-- Settles O18: both steps are the sleep and the move of SEQ; the draw's range is that of every draw. -/
theorem settleDelaysSleepAndGoOn : Obligations.SettleDelaysSleepAndGoOn := by
  intro s
  obtain ⟨least, most⟩ := settleDelay_range s.timer s.draws
  refine ⟨rfl, rfl, least, most, ?_⟩
  rintro (q | q) <;> rw [State.busHold, q] <;> rfl

/-- Settles O20: the receive on the two sides of its validation; a failed one has two codes. -/
theorem responseRead : Obligations.ResponseRead := by
  refine ⟨rfl, fun s b rr hr => ?_⟩
  intro got
  exact ⟨execRRecv_accepted hr,
    failCode_verdicts (fun c => exec .rRecv s = .next { got with err := some c, seq := .pDiag }) (execRRecv_failed hr)⟩

end Sys2Proof.Machine
end

section
/-! The rules the handshake family's proofs share: a failed send of ATTACH, the two writes on the two sides of their
validation, INIT, and the steps of an ATTACH run. -/

namespace Sys2Proof.Machine

variable {s t : State} {a b : Ret} {rs rest : List Ret}

/-! ### The two writes (R74, R76) -/

/-- After ATTACH has completed with `c`, in the lifecycle state `l` (R76, R111). -/
abbrev State.attachEnded (l : Lifecycle) (c : Completion) (s : State) : State := (s.setLs l).complete c

/-- A TransportError in ATTACH leaves no trace in ERR, which the completion makes void (R24, R111). -/
theorem raise_attach_ends (c : Ret) (s : State) :
    raiseTransportError .attach c s = .next (s.attachEnded .failed (.attachError c)) := rfl

/-- A send of ATTACH that fails its validation ends the command, whatever its frame and what would follow it (R111). -/
theorem sendFrame_attach_failed {f : List Byte} {go : State → Result} (hs : s.sends = a :: rs)
    (c : a.toInt ≠ f.length) :
    sendFrame f .attach go s = .next ((s.sent f a rs).attachEnded .failed (.attachError (failCode a))) := by
  rw [sendFrame_returned _ _ _ hs, classify_fail c]
  exact raise_attach_ends _ _

theorem execHSend1_accepted (hs : s.sends = a :: rs) (c : a.toInt = 2) :
    execHSend1 s = .next ((s.sent Config.init1Frame a rs).goto .hBusy) :=
  (sendFrame_verdicts Config.init1Frame .attach _ hs).1 c

theorem execHSend1_failed (hs : s.sends = a :: rs) (c : a.toInt ≠ 2) :
    execHSend1 s = .next ((s.sent Config.init1Frame a rs).attachEnded .failed (.attachError (failCode a))) :=
  sendFrame_attach_failed hs c

theorem execHSend2_accepted (hs : s.sends = a :: rs) (c : a.toInt = 2) :
    execHSend2 s = .next ((s.sent Config.init2Frame a rs).attachEnded .polling .ok) :=
  (sendFrame_verdicts Config.init2Frame .attach _ hs).1 c

theorem execHSend2_failed (hs : s.sends = a :: rs) (c : a.toInt ≠ 2) :
    execHSend2 s = .next ((s.sent Config.init2Frame a rs).attachEnded .failed (.attachError (failCode a))) :=
  sendFrame_attach_failed hs c

/-! ### INIT (R73) -/

/-- After a first write that has returned `a` and the busy-wait, at the second write (R75). -/
abbrev State.halfInitialized (a : Ret) (rs : List Ret) (s : State) : State :=
  (s.sent Config.init1Frame a rs).busyWait.goto .hSend2

/-- The outcome of the second write ends ATTACH with both writes and the busy-wait between them in the trace. -/
theorem secondWrite_attachEnded (s : State) (a : Ret) (rs : List Ret) (b : Ret) (rest : List Ret) (l : Lifecycle)
    (c : Completion) :
    ((s.halfInitialized a rs).sent Config.init2Frame b rest).attachEnded l c =
      { s with ls := l, st := c.status, rb := none, ds := none, err := none, seq := .idle, sends := rest,
               trace := s.trace ++
                 [.transport (.send [0xF0#8, 0x55#8] a), .delay (.busyWait 1000),
                  .transport (.send [0xFB#8, 0x00#8] b)] ++ [.done c] } := by
  simp [state_eq_iff, Config.init1Frame, Config.init2Frame, Config.initGapUs]

/-- A failed first write leaves the sequencer at IDLE, past the rest of INIT. -/
theorem execInit_first_failed (hs : s.sends = a :: rs) (c : a.toInt ≠ 2) :
    execInit s = .next ((s.sent Config.init1Frame a rs).attachEnded .failed (.attachError (failCode a))) := by
  have first := execHSend1_failed (s := s.goto .hSend1) hs c
  calc execInit s
    _ = runExpansion (performAll [.hBusy, .hSend2]) _ := runExpansion_at rfl first
    _ = _ := runExpansion_performAll_of_not_mem (by simp)

/-- After an accepted first write INIT waits and ends as its second write does. -/
theorem execInit_first_accepted (hs : s.sends = a :: rs) (c : a.toInt = 2)
    (second : execHSend2 (s.halfInitialized a rs) = .next t) : execInit s = .next t := by
  have first := execHSend1_accepted (s := s.goto .hSend1) hs c
  calc execInit s
    _ = runExpansion (performAll [.hBusy, .hSend2]) _ := runExpansion_at rfl first
    _ = runExpansion (performAll [.hSend2]) (s.halfInitialized a rs) := runExpansion_at rfl rfl
    _ = runExpansion [] t := runExpansion_at rfl second

/-! ### Steps of an ATTACH run (R87) -/

/-- An accepted ATTACH starts at H_SEND1 (R86). -/
theorem step_attach {more : List HostEvent} (q : s.seq = .idle) (l : s.ls = .uninitialized)
    (h : s.host = .command 0b00#2 :: more) : step s = .next ((s.setHost more).goto .hSend1) := by
  have accepts : acceptsAttach (s.setHost more).ls = true := by simp [acceptsAttach, l]
  have idle : (s.setHost more).seq = .idle := q
  rw [step_command h, commandStep_decoded (i := .attach) rfl, exec, execAttach, accepts, takeCommand_accepted _ idle]

/-- An ATTACH whose first write is accepted comes to its second write in three steps. -/
theorem runSteps_attach_accepted {k : Nat} {more : List HostEvent} (q : s.seq = .idle) (l : s.ls = .uninitialized)
    (h : s.host = .command 0b00#2 :: .quiet :: .quiet :: more) (hs : s.sends = a :: rs) (c : a.toInt = 2) :
    runSteps (k + 3) s = runSteps k ((s.setHost more).halfInitialized a rs) := by
  calc runSteps (k + 3) s
    _ = _ := runSteps_next (step_attach q l h)
    _ = _ := runSteps_quiet .hSend1 rfl rfl (execHSend1_accepted hs c)
    _ = _ := runSteps_quiet .hBusy rfl rfl rfl

end Sys2Proof.Machine
end

section
/-! The obligations of the handshake family. -/

namespace Sys2Proof.Machine

/-- Settles O17: INIT on its three ways through; a failed write has two codes. -/
theorem initOperation : Obligations.InitOperation := by
  intro s a rs hs first ended
  have firstFailed := failCode_verdicts
    (fun c => exec .init s = .next (ended .failed .attachError (.attachError c) rs first)) (execInit_first_failed hs)
  obtain ⟨negative, mismatch⟩ := firstFailed
  refine ⟨negative, mismatch, fun ca b rest hr => ?_⟩
  intro both
  have ends (l : Lifecycle) (c : Completion)
      (second : execHSend2 (s.halfInitialized a rs) =
        .next (((s.halfInitialized a rs).sent Config.init2Frame b rest).attachEnded l c)) :
      exec .init s = .next (ended l c.status c rest both) :=
    execInit_first_accepted hs ca (second.trans (congrArg _ (secondWrite_attachEnded s a rs b rest l c)))
  exact ⟨fun cb => ends _ _ (execHSend2_accepted hr cb), failCode_verdicts
    (fun c => exec .init s = .next (ended .failed .attachError (.attachError c) rest both)) fun cb =>
      ends _ _ (execHSend2_failed hr cb)⟩

/-- Settles O46: the run of an ATTACH, step by step, to the write that fails or is the last; a failed write has two
codes. -/
theorem attachRunsTheHandshake : Obligations.AttachRunsTheHandshake := by
  intro s a rs more q l hs first ended
  refine ⟨fun hh => failCode_verdicts
    (fun c => runSteps 2 s = .next (ended .failed .attachError (.attachError c) rs first)) fun ca => ?_,
    fun hh ca b rest hr => ?_⟩
  · calc runSteps 2 s
      _ = _ := runSteps_next (step_attach q l hh)
      _ = _ := runSteps_quiet .hSend1 rfl rfl (execHSend1_failed hs ca)
  intro both
  have ends (l' : Lifecycle) (c : Completion)
      (second : execHSend2 ((s.setHost more).halfInitialized a rs) =
        .next ((((s.setHost more).halfInitialized a rs).sent Config.init2Frame b rest).attachEnded l' c)) :
      runSteps 4 s = .next (ended l' c.status c rest both) := by
    calc runSteps 4 s
      _ = _ := runSteps_attach_accepted q l hh hs ca
      _ = _ := runSteps_quiet .hSend2 rfl rfl second
      _ = _ := congrArg _ (secondWrite_attachEnded (s.setHost more) a rs b rest l' c)
  exact ⟨fun cb => ends _ _ (execHSend2_accepted hr cb), failCode_verdicts
    (fun c => runSteps 4 s = .next (ended .failed .attachError (.attachError c) rest both)) fun cb =>
      ends _ _ (execHSend2_failed hr cb)⟩

/-- Settles O15: the step is the busy-wait and the move of SEQ; it goes from one step that holds the bus to another. -/
theorem handshakeGapHoldsTheBus : Obligations.HandshakeGapHoldsTheBus := by
  intro s
  refine ⟨rfl, fun q => ⟨?_, rfl⟩⟩
  rw [State.busHold, q]
  rfl

/-- Settles O16: both are one send of INIT2 in ATTACH, on the three verdicts of the validation. -/
theorem secondHandshakeWrite : Obligations.SecondHandshakeWrite := by
  refine ⟨rfl, fun i s ret rest hi hs => ?_⟩
  have send : exec i s =
      sendFrame Config.init2Frame .attach (fun t => .next ((t.setLs .polling).complete .ok)) s := by
    rcases hi with rfl | rfl <;> rfl
  rw [send]
  exact sendFrame_verdicts Config.init2Frame .attach _ hs

end Sys2Proof.Machine
end

section
/-! The rules the decoder family's proofs share: the decoded state by the bits of the response, its inverse, DECODE as
its one step, and how a poll whose calls are answered ends. -/

namespace Sys2Proof.Machine

variable {s t : State}

/-! ### The decoded state (R80 to R84) -/

/-- Byte 0, byte 1 and the two button bits are all that a decoded state is made of. -/
theorem decodeResponse_eq_bits (r : RawResponse) :
    decodeResponse r = ⟨r.b0, r.b1, !r.b5.getLsbD 1, !r.b5.getLsbD 0⟩ := by
  rw [decodeResponse, buttonC_eq_not_bit, buttonZ_eq_not_bit, axisX, axisY]

/-- A response that decodes to `d`: a pressed button is a clear bit, and the bits that are not read are 0. -/
def DecodedState.toResponse (d : DecodedState) : RawResponse :=
  respBytes d.ax d.ay 0 0 0 0 (BitVec.ofBool (!d.bc)) (BitVec.ofBool (!d.bz))

theorem ofBool_not_beq_zero (b : Bool) : (BitVec.ofBool (!b) == 0#1) = b := by
  cases b <;> rfl

theorem decodeResponse_toResponse (d : DecodedState) : decodeResponse d.toResponse = d := by
  rw [DecodedState.toResponse, decodeResponse_respBytes, ofBool_not_beq_zero, ofBool_not_beq_zero]

/-! ### P_DECODE and DECODE (R79, R89) -/

theorem execPDecode_some {r : RawResponse} (h : s.rb = some r) :
    execPDecode s = .next ((s.setDs (decodeResponse r)).goto .pKeyC) := readRb_some h _

/-- DECODE is its one step, wherever the sequencer was before it. -/
theorem execDecode_some {r : RawResponse} (h : s.rb = some r) :
    execDecode s = .next ((s.setDs (decodeResponse r)).goto .pKeyC) :=
  runExpansion_at (s.goto_seq .pDecode) (execPDecode_some (s := s.goto .pDecode) h)

/-! ### How a poll ends (R88, R100) -/

/-- `t` is `s` after a completed tick that put out `out`: nothing else of it is left in the registers, and the lifecycle
is the one before (R24, R86, R110). -/
structure State.PollEnded (s : State) (out : List Event) (t : State) : Prop where
  trace : t.trace = s.trace ++ out
  ls : t.ls = s.ls
  st : t.st = .ok
  rb : t.rb = none
  ds : t.ds = none
  err : t.err = none
  seq : t.seq = .idle

/-- A completion with `Done(OK)` ends a poll that kept the lifecycle. -/
theorem pollEnded_complete {out : List Event} (l : t.ls = s.ls) (tr : t.trace = s.trace ++ out) :
    s.PollEnded (out ++ [.done .ok]) (t.complete .ok) where
  trace := by rw [State.complete_trace, tr, List.append_assoc]
  ls := l
  st := rfl
  rb := rfl
  ds := rfl
  err := rfl
  seq := rfl

/-- A poll whose read fails puts out what the read did, and one diagnostic (R95). -/
theorem exists_pollEnded_of_failed_read {c : Ret} {out : List Event} (h : execReadState s = .next t)
    (q : t.seq = .pDiag) (e : t.err = some c) (l : t.ls = s.ls) (tr : t.trace = s.trace ++ out) :
    ∃ u, execPoll s = .next u ∧ s.PollEnded (out ++ [.diag c] ++ [.done .ok]) u :=
  ⟨_, execPoll_failed_read h q e,
    pollEnded_complete l (by rw [State.emit_trace, tr, List.append_assoc])⟩

/-- The batch of one response, by the bits its fields stand at (R88). -/
def batchOf (r : RawResponse) : List Event :=
  [.sink (.reportKey .keyC (!r.b5.getLsbD 1)), .sink (.reportKey .keyZ (!r.b5.getLsbD 0)),
   .sink (.reportAbs .absX r.b0.toNat), .sink (.reportAbs .absY r.b1.toNat), .sink .sync]

/-- A poll whose read succeeds puts out what the read did, and the batch of its response. -/
theorem exists_pollEnded_of_successful_read {r : RawResponse} {out : List Event} (h : execReadState s = .next t)
    (q : t.seq = .pDecode) (hr : t.rb = some r) (l : t.ls = s.ls) (tr : t.trace = s.trace ++ out) :
    ∃ u, execPoll s = .next u ∧ s.PollEnded (out ++ batchOf r ++ [.done .ok]) u := by
  refine ⟨_, execPoll_successful_read h q hr, pollEnded_complete l ?_⟩
  rw [reported_decodeResponse_trace, tr, List.append_assoc, batchOf]

/-- What a tick puts out up to the return of its trigger (R67, R68). -/
def triggerOutputs (timer draws : Nat) (a : Ret) : List Event :=
  [.delay (.sleep timer draws), .transport (.send Config.trigFrame a)]

/-- What a tick puts out up to the return of its receive (R67 to R70). -/
def readOutputs (timer draws : Nat) (a : Ret) (b : RecvAnswer) : List Event :=
  triggerOutputs timer draws a ++ [.delay (.sleep timer (draws + 1)), .transport (.recv Config.nResp b)]

theorem asked_trace (s : State) (a : Ret) (rs : List Ret) :
    (s.asked a rs).trace = s.trace ++ triggerOutputs s.timer s.draws a := by
  simp [triggerOutputs]

theorem answered_trace (s : State) (a : Ret) (rs : List Ret) (b : RecvAnswer) (rr : List RecvAnswer) :
    (s.answered a rs b rr).trace = s.trace ++ readOutputs s.timer s.draws a b := by
  simp [readOutputs, triggerOutputs]

/-- One list of outputs serves every state with the same answers, generator and count of draws: the poll takes nothing
else from the state it starts in. -/
theorem exists_outputs_forall_pollEnded (a : Ret) (rs : List Ret) (recvs : List RecvAnswer) (timer draws : Nat)
    (answered : a.toInt = 1 → recvs ≠ []) :
    ∃ out : List Event, ∀ s : State,
      s.sends = a :: rs → s.recvs = recvs → s.timer = timer → s.draws = draws →
        ∃ t, execPoll s = .next t ∧ s.PollEnded out t := by
  by_cases ca : a.toInt = 1
  · obtain ⟨b, rr, rfl⟩ := List.exists_cons_of_ne_nil (answered ca)
    by_cases cb : b.ret.toInt = 6
    · refine ⟨readOutputs timer draws a b ++ batchOf b.data ++ [.done .ok], ?_⟩
      rintro s hs hr rfl rfl
      exact exists_pollEnded_of_successful_read (execReadState_receive_accepted hs ca hr cb) rfl rfl (by simp)
        (answered_trace s a rs b rr)
    · refine ⟨readOutputs timer draws a b ++ [.diag (failCode b.ret)] ++ [.done .ok], ?_⟩
      rintro s hs hr rfl rfl
      exact exists_pollEnded_of_failed_read (execReadState_receive_failed hs ca hr cb) rfl rfl (by simp)
        (answered_trace s a rs b rr)
  · refine ⟨triggerOutputs timer draws a ++ [.diag (failCode a)] ++ [.done .ok], ?_⟩
    rintro s hs - rfl rfl
    exact exists_pollEnded_of_failed_read (execReadState_trigger_failed hs ca) rfl rfl (by simp) (asked_trace s a rs)

end Sys2Proof.Machine
end

section
/-! The obligations of the decoder family. -/

namespace Sys2Proof.Machine

/-- Settles O26: equal decoded states have equal fields, and each decoded state has a response of its own. -/
theorem decodeReadsExactlyFourFields : Obligations.DecodeReadsExactlyFourFields := by
  refine ⟨fun r q => ?_, fun d => ⟨d.toResponse, decodeResponse_toResponse d⟩⟩
  rw [decodeResponse_eq_bits, decodeResponse_eq_bits, DecodedState.mk.injEq, Bool.not_inj_iff, Bool.not_inj_iff]

/-- Settles O32: both polls put out the one list their common answers fix, and complete. -/
theorem pollDependsOnItsAnswersAlone : Obligations.PollDependsOnItsAnswersAlone := by
  intro s q t u a rs hs sends recvs timer draws answered ht hu
  obtain ⟨out, ends⟩ := exists_outputs_forall_pollEnded a rs s.recvs s.timer s.draws answered
  obtain ⟨t', ht', endT⟩ := ends s hs rfl rfl rfl
  obtain ⟨u', hu', endU⟩ := ends q (sends.trans hs) recvs timer draws
  obtain rfl : t' = t := Host.Outcome.next.inj (ht'.symm.trans ht)
  obtain rfl : u' = u := Host.Outcome.next.inj (hu'.symm.trans hu)
  exact ⟨⟨out, endT.trace, endU.trace⟩, endT.st.trans endU.st.symm, endT.rb.trans endU.rb.symm,
    endT.ds.trans endU.ds.symm, endT.err.trans endU.err.symm, endT.seq.trans endU.seq.symm, endT.ls, endU.ls⟩

/-- Settles O25: the step and the operation fill DS with the decoding of RB, which is its four fields. -/
theorem decodeStepFillsTheDecodedState : Obligations.DecodeStepFillsTheDecodedState := by
  intro i s r hi h
  rw [← decodeResponse_eq_bits]
  rcases hi with rfl | rfl
  · exact execPDecode_some h
  · exact execDecode_some h

end Sys2Proof.Machine
end

section
/-! The rules the polling and lifecycle family's proofs share: commands by SEQ and LS, a message or diagnostic that ends
the tick, the report as a run of its own, a turn kept off the bus, and what each step can put out. -/

namespace Sys2Proof.Machine

variable {s t : State}

/-! ### Accepted commands (R86, R97) -/

theorem execAttach_accepted (q : s.seq = .idle) (l : s.ls = .uninitialized) :
    execAttach s = .next (s.goto .hSend1) := by
  have accepts : acceptsAttach s.ls = true := beq_iff_eq.mpr l
  rw [execAttach, accepts, takeCommand_accepted _ q]

theorem execTick_accepted (q : s.seq = .idle) (l : s.ls = .polling) : execTick s = .next (s.goto .rWait1) := by
  have accepts : acceptsTick s.ls = true := beq_iff_eq.mpr l
  rw [execTick, accepts, takeCommand_accepted _ q]

theorem execDetach_accepted (q : s.seq = .idle) (l : s.ls = .polling) :
    execDetach s = .next ((s.setLs .stopped).complete .ok) := by
  have accepts : acceptsDetach s.ls = true := beq_iff_eq.mpr l
  rw [execDetach, accepts, takeCommand_accepted _ q]

theorem execDetach_refused (q : s.seq = .idle) (l : s.ls ≠ .polling) :
    execDetach s = .next (s.complete .refused) := by
  rw [execDetach, acceptsDetach_eq_false l, takeCommand_refused _ q]

/-! ### Commands while BUSY (R99) -/

theorem execAttach_busy (q : s.seq ≠ .idle) : execAttach s = .fault .overlap := takeCommand_busy _ _ q

theorem execTick_busy (q : s.seq ≠ .idle) : execTick s = .fault .overlap := takeCommand_busy _ _ q

theorem execDetach_busy (q : s.seq ≠ .idle) : execDetach s = .fault .overlap := takeCommand_busy _ _ q

/-! ### The end of a tick (R94, R95) -/

/-- One output and the completion after it, as the whole next state. -/
theorem emit_complete (e : Event) (c : Completion) (s : State) :
    (s.emit e).complete c =
      { s with st := c.status, rb := none, ds := none, err := none, seq := .idle,
               trace := s.trace ++ [e, .done c] } := by
  rw [State.complete, State.emit_trace, List.append_assoc]
  rfl

/-- From P_DECODE a tick decodes, reports the batch and completes in six quiet steps (R88 to R94). -/
theorem runSteps_report {k : Nat} {r : RawResponse} {more : List HostEvent} (q : s.seq = .pDecode)
    (hr : s.rb = some r) (h : s.host = List.replicate 6 .quiet ++ more) :
    runSteps (k + 6) s = runSteps k (((s.setHost more).reported (decodeResponse r)).complete .ok) := by
  calc runSteps (k + 6) s
    _ = _ := runSteps_quiet .pDecode q h (execPDecode_some hr)
    _ = _ := runSteps_quiet .pKeyC rfl rfl (execPKeyC_reports rfl)
    _ = _ := runSteps_quiet .pKeyZ rfl rfl (execPKeyZ_reports rfl)
    _ = _ := runSteps_quiet .pAbsX rfl rfl (execPAbsX_reports rfl)
    _ = _ := runSteps_quiet .pAbsY rfl rfl (execPAbsY_reports rfl)
    _ = _ := runSteps_quiet .pSync rfl rfl rfl

/-! ### A turn kept off the bus (R122) -/

/-- Kept off with nothing presented, the engine only consumes its host's event. -/
theorem State.turn_held_quiet (h : s.aboutToCall = true) (quiet : s.hostQuiet = true) :
    s.turn true = .next (s.setHost s.host.tail) := by
  obtain ⟨-, -, -, waits⟩ | ⟨-, presented⟩ := State.turn_cases true s
  · exact waits
  · rw [presented rfl h] at quiet
    cases quiet

theorem seq_ne_idle_of_aboutToCall (h : s.aboutToCall = true) : s.seq ≠ .idle := by
  intro idle
  simp [State.aboutToCall, idle] at h

/-- A device about to call whose host presents something stops with the overlap, whatever the arbiter says (R99,
R132). -/
theorem Device.turn_presented {d : Device} (hstop : d.stop = none) (hcall : d.engine.aboutToCall = true)
    (presented : d.engine.hostQuiet = false) (held : Bool) : d.turn held = { d with stop := some (.fault .overlap) } :=
  Device.turn_fault hstop
    (State.turn_fault_of_step (step_presented_busy presented (seq_ne_idle_of_aboutToCall hcall)) held)

/-! ### What a step can put out (R101) -/

/-- The step `q` of the sequencer is one that can put out an event of this kind. -/
def SeqStep.Causes (q : SeqStep) : Event → Prop
  | .transport (.send _ _) => q = .hSend1 ∨ q = .hSend2 ∨ q = .rTrig
  | .transport (.recv _ _) => q = .rRecv
  | .delay (.busyWait _) => q = .hBusy
  | .delay (.sleep _ _) => q = .rWait1 ∨ q = .rWait2
  | .sink _ => q = .pKeyC ∨ q = .pKeyZ ∨ q = .pAbsX ∨ q = .pAbsY ∨ q = .pSync
  | .diag _ => q = .pDiag
  | .done _ => q = .hSend1 ∨ q = .hSend2 ∨ q = .pSync ∨ q = .pDiag

/-- The sequencer adds to the trace only what the step it is at causes: nothing, one event, or one and the
completion. -/
theorem SeqMove.outputs (m : SeqMove s t) : ∃ out, t.trace = s.trace ++ out ∧ ∀ e ∈ out, s.seq.Causes e := by
  cases m with
  | waiting | pendingSend | pendingRecv | decoded => exact ⟨[], (List.append_nil _).symm, nofun⟩
  | send1Ok _ _ q | gap q | wait1 q | trigOk _ _ q | trigFail _ _ q | wait2 q | recvOk _ _ q | recvFail _ _ q
  | keyC _ q | keyZ _ q | absX _ q | absY _ q => exact ⟨_, rfl, by simp [SeqStep.Causes, q]⟩
  | send1Fail _ _ q | send2Ok _ _ q | send2Fail _ _ q | synced q | diagnosed _ q =>
    exact ⟨_, List.append_assoc _ _ _, by simp [SeqStep.Causes, q]⟩

/-- A presented command is answered at IDLE, and adds completions to the trace at the most. -/
theorem CommandMove.outputs (m : CommandMove s t) :
    s.seq = .idle ∧ ∃ out, t.trace = s.trace ++ out ∧ ∀ e ∈ out, ∃ c, e = .done c := by
  cases m with
  | attach q | tick q => exact ⟨q, [], (List.append_nil _).symm, nofun⟩
  | detach q | refused q => exact ⟨q, _, rfl, by simp⟩

end Sys2Proof.Machine
end

section
/-! The obligations of the polling and lifecycle family. -/

namespace Sys2Proof.Machine

/-- Settles O36: a quiet step puts out what its step of the sequencer causes; a command puts out a completion at
the most. -/
theorem outputsComeFromTheirSteps : Obligations.OutputsComeFromTheirSteps := by
  intro s t noReset e
  obtain ⟨quiet, m⟩ | ⟨code, rest, hh, m, -⟩ | ⟨rest, hh, -, -⟩ := step_cases e
  · obtain ⟨out, htrace, caused⟩ := m.outputs
    refine ⟨out, htrace, fun ev hev => ?_⟩
    have cause := caused ev hev
    cases ev with
    | transport call => cases call <;> exact ⟨quiet, cause⟩
    | delay d => cases d <;> exact ⟨quiet, cause⟩
    | sink | diag => exact ⟨quiet, cause⟩
    | done => exact .inl ⟨quiet, cause⟩
  · obtain ⟨idle, out, htrace, completions⟩ := m.outputs
    refine ⟨out, htrace, fun ev hev => ?_⟩
    obtain ⟨c, rfl⟩ := completions ev hev
    exact .inr ⟨idle, code, by rw [hh, List.head?_cons]⟩
  · exact absurd (by rw [hh, List.head?_cons]) noReset

/-- Settles O47: the command, the four steps of the read with both answers accepted, and the report. -/
theorem tickReportsOneBatch : Obligations.TickReportsOneBatch := by
  intro s a b rs rr more q l hs hr hh ca cb
  calc runSteps 11 s
    _ = _ := runSteps_tick q l hh
    _ = _ := runSteps_quiet .rTrig rfl rfl (execRTrig_accepted hs ca)
    _ = _ := runSteps_quiet .rWait2 rfl rfl rfl
    _ = _ := runSteps_quiet .rRecv rfl rfl (execRRecv_accepted hr cb)
    _ = _ := runSteps_report (more := more) rfl rfl rfl
    _ = _ := by
      rw [runSteps_zero, Host.Outcome.next.injEq, state_eq_iff, State.complete_trace, reported_decodeResponse_trace]
      simp [State.reported, Completion.status, Config.trigFrame, Config.nResp]

/-- Settles O54: a held turn waits where the host is quiet, and is the overlap where it presents anything. -/
theorem heldEngineStillMeetsItsHost : Obligations.HeldEngineStillMeetsItsHost := by
  intro d hstop hcalling hcall
  refine ⟨fun quiet => ?_, fun code rest hh => ?_, fun rest hh => ?_⟩
  · rw [Device.turn_next hstop (State.turn_held_quiet hcall quiet), hcalling]
    simp [State.setHost]
  · exact Device.turn_presented hstop hcall (by rw [State.hostQuiet, hh]) true
  · exact Device.turn_presented hstop hcall (by rw [State.hostQuiet, hh]) true

/-- Settles O10: both commands are accepted, and their start moves SEQ alone. -/
theorem acceptedCommandsStartTheirSteps : Obligations.AcceptedCommandsStartTheirSteps :=
  fun _ q => ⟨execAttach_accepted q, execTick_accepted q⟩

/-- Settles O11: accepted, refused or an overlap, by SEQ and LS. -/
theorem detachStopsTheEngine : Obligations.DetachStopsTheEngine := by
  refine ⟨rfl, fun s => ⟨fun q l => ?_, fun q l => ?_, execDetach_busy⟩⟩
  · exact (execDetach_accepted q l).trans (congrArg _ (complete_of_idle (s := s.setLs .stopped) q .ok))
  · exact (execDetach_refused q l).trans (congrArg _ (complete_of_idle q .refused))

/-- Settles O13: each of the three commands overlaps, and so does every presented code. -/
theorem overlapHasNoOutcome : Obligations.OverlapHasNoOutcome := by
  intro s busy
  have q : s.seq ≠ .idle := busy_iff.mp busy
  exact ⟨execAttach_busy q, execTick_busy q, execDetach_busy q,
    fun code _ hh => (step_command hh).trans (commandStep_busy code q)⟩

/-- Settles O27: with DS full each of the four steps is its report. -/
theorem reportStepsEmitOneMessage : Obligations.ReportStepsEmitOneMessage :=
  ⟨rfl, rfl, rfl, rfl, fun _ _ h =>
    ⟨execPKeyC_reports h, execPKeyZ_reports h, execPAbsX_reports h, execPAbsY_reports h⟩⟩

/-- Settles O28: the step is the sync message and the completion after it. -/
theorem syncStepCompletesTheTick : Obligations.SyncStepCompletesTheTick :=
  ⟨rfl, fun s => congrArg _ (emit_complete (.sink .sync) .ok s)⟩

/-- Settles O29: the step is the return from the error path, one diagnostic and the completion after it. -/
theorem diagStepReturnsFromTheError : Obligations.DiagStepReturnsFromTheError :=
  fun s c h => (returnFromError_some h).trans (congrArg _ (emit_complete (.diag c) .ok s))

end Sys2Proof.Machine
end

section
/-! The rules the exceptions family's proof uses: what a completion leaves of the outputs, and what an engine whose run
has ended still does. -/

namespace Sys2Proof.Machine

variable {s t : State}

/-! ### A completion is none of the outputs that R142 names -/

@[simp] theorem calls_complete (c : Completion) : (s.complete c).calls = s.calls := by
  simp [State.calls, Event.call?]

@[simp] theorem sinkMessages_complete (c : Completion) : (s.complete c).sinkMessages = s.sinkMessages := by
  simp [State.sinkMessages, Event.sink?]

@[simp] theorem diagnostics_complete (c : Completion) : (s.complete c).diagnostics = s.diagnostics := by
  simp [State.diagnostics, Event.diag?]

/-! ### An ended run (R114, R140, R142) -/

/-- The sequencer at IDLE only waits (R86, R142). -/
theorem SeqMove.eq_of_idle (m : SeqMove s t) (q : s.seq = .idle) : t = s := by
  obtain rfl | next := m.stays_or_moves_on
  · rfl
  · simp [q, SeqStep.successors] at next

/-- No lifecycle state in which a run has ended accepts a command (R97, R98). -/
theorem CommandMove.eq_of_ended (m : CommandMove s t) (h : s.Ended) : t = s.complete .refused := by
  obtain ⟨ended, -⟩ := h
  cases m with
  | attach _ l | tick _ l | detach _ l => simp [l] at ended
  | refused => rfl

/-- Short of a reset, the step of an ended run consumes the host's event and refuses the command, if it is one. -/
theorem step_of_ended (h : s.Ended) (noReset : .reset ∉ s.host) :
    step s = .next (s.setHost s.host.tail) ∨ step s = .next ((s.setHost s.host.tail).complete .refused) := by
  obtain ⟨t, e⟩ := step_answers_of_idle h.2
  obtain ⟨-, m⟩ | ⟨code, rest, hh, m, -⟩ | ⟨rest, hh, -, -⟩ := step_cases e
  · exact .inl (e.trans (congrArg _ (m.eq_of_idle h.2)))
  · have refused : t = (s.setHost rest).complete .refused := m.eq_of_ended h
    exact .inr (by rw [e, refused, hh, List.tail_cons])
  · simp [hh] at noReset

/-- Short of a reset, a step keeps a run ended and puts out nothing that R142 names. -/
theorem step_keeps_ended (h : s.Ended) (noReset : .reset ∉ s.host) :
    ∃ t, step s = .next t ∧ t.Ended ∧ .reset ∉ t.host ∧ t.ls = s.ls ∧
      t.calls = s.calls ∧ t.sinkMessages = s.sinkMessages ∧ t.diagnostics = s.diagnostics := by
  have noReset' : .reset ∉ s.host.tail := mt List.mem_of_mem_tail noReset
  obtain waits | refuses := step_of_ended h noReset
  · exact ⟨_, waits, h, noReset', rfl, rfl, rfl, rfl⟩
  · exact ⟨_, refuses, ⟨h.1, rfl⟩, noReset', rfl, calls_complete _, sinkMessages_complete _, diagnostics_complete _⟩

end Sys2Proof.Machine
end

section
/-! The obligation of the exceptions family. -/

namespace Sys2Proof.Machine

/-- Settles O51: by induction on the length of the run, each step of an ended run keeping it ended. -/
theorem endedRunsStayEnded : Obligations.EndedRunsStayEnded := by
  intro k
  induction k with
  | zero => exact fun s h _ => ⟨s, runSteps_zero s, rfl, h.2, rfl, rfl, rfl⟩
  | succ k ih =>
    intro s h noReset
    obtain ⟨u, first, hu, noReset', ls, calls, messages, diags⟩ := step_keeps_ended h noReset
    obtain ⟨t, run, ls', idle, calls', messages', diags'⟩ := ih u hu noReset'
    exact ⟨t, (runSteps_next first).trans run, ls'.trans ls, idle, calls'.trans calls, messages'.trans messages,
      diags'.trans diags⟩

end Sys2Proof.Machine
end

section
/-! The rules the reset and hazards family's proofs share: a host that keeps its duties and what the engine answers it,
the time slept by the outputs of a poll, and how near to its end a running command is. -/

namespace Sys2Proof.Machine

variable {s t : State}

/-! ### A host that keeps its duties (R127, R128, R130, R131) -/

theorem hostObeys_of_command {code : BitVec 2} {rest : List HostEvent} (h : s.host = .command code :: rest) :
    s.HostObeys ↔
      s.seq = .idle ∧
        ((code = 0b00#2 ∧ s.ls = .uninitialized) ∨ ((code = 0b01#2 ∨ code = 0b10#2) ∧ s.ls = .polling)) := by
  rw [State.HostObeys, h]

theorem hostObeys_of_reset {rest : List HostEvent} (h : s.host = .reset :: rest) : s.HostObeys ↔ s.seq = .idle := by
  rw [State.HostObeys, h]

/-- The step answers a next state, and adds no REFUSED completion to the trace. -/
def State.Served (s : State) : Prop :=
  ∃ t out, step s = .next t ∧ t.trace = s.trace ++ out ∧ .done .refused ∉ out

/-- No step of the sequencer completes with REFUSED. -/
theorem SeqMove.refuses_nothing (m : SeqMove s t) : ∃ out, t.trace = s.trace ++ out ∧ .done .refused ∉ out := by
  cases m with
  | waiting | pendingSend | pendingRecv | decoded => exact ⟨[], (List.append_nil _).symm, nofun⟩
  | send1Ok | gap | wait1 | trigOk | trigFail | wait2 | recvOk | recvFail | keyC | keyZ | absX | absY =>
    exact ⟨_, rfl, by simp⟩
  | send1Fail | send2Ok | send2Fail | synced | diagnosed => exact ⟨_, List.append_assoc _ _ _, by simp⟩

theorem served_of_quiet (h : s.Consistent) (quiet : s.hostQuiet = true) : s.Served := by
  obtain ⟨t, e⟩ := sequencerStep_answers_of_consistent (s := s.setHost s.host.tail) h
  obtain ⟨out, htrace, notRefused⟩ := (sequencerStep_move e).refuses_nothing
  exact ⟨t, out, (step_quiet quiet).trans e, htrace, notRefused⟩

/-- An accepted DETACH stops the engine at once (R96). -/
theorem step_detach {rest : List HostEvent} (q : s.seq = .idle) (l : s.ls = .polling)
    (h : s.host = .command 0b10#2 :: rest) :
    step s = .next (((s.setHost rest).setLs .stopped).complete .ok) := by
  rw [step_command h, commandStep_decoded (i := .detach) rfl]
  exact execDetach_accepted q l

theorem served_of_command {code : BitVec 2} {rest : List HostEvent} (hh : s.host = .command code :: rest)
    (duty : s.HostObeys) : s.Served := by
  obtain ⟨q, ⟨rfl, l⟩ | ⟨rfl | rfl, l⟩⟩ := (hostObeys_of_command hh).mp duty
  · exact ⟨_, [], step_attach q l hh, (List.append_nil _).symm, nofun⟩
  · exact ⟨_, [], step_tick q l hh, (List.append_nil _).symm, nofun⟩
  · exact ⟨_, [.done .ok], step_detach q l hh, rfl, by simp⟩

/-- Short of a reset, a consistent engine serves a host that keeps its duties. -/
theorem served_of_duty (h : s.Consistent) (duty : s.HostObeys) (noReset : s.host.head? ≠ some .reset) : s.Served := by
  cases hh : s.host with
  | nil => exact served_of_quiet h (by rw [State.hostQuiet, hh])
  | cons event rest =>
    cases event with
    | quiet => exact served_of_quiet h (by rw [State.hostQuiet, hh])
    | command code => exact served_of_command hh duty
    | reset => exact absurd (by rw [hh, List.head?_cons]) noReset

/-! ### The time slept in a poll (R139) -/

theorem sleptMs_append (l out : List Event) : sleptMs (l ++ out) = sleptMs l + sleptMs out := by
  induction l with
  | nil => rw [List.nil_append, sleptMs, zero_add]
  | cons e l ih =>
    cases e with
    | delay d => cases d <;> simp [sleptMs, ih, add_assoc]
    | transport | sink | diag | done => simp [sleptMs, ih]

/-- The first settle delay is all that is slept up to the return of the trigger (R67). -/
@[simp] theorem sleptMs_triggerOutputs (timer draws : Nat) (a : Ret) :
    sleptMs (triggerOutputs timer draws a) = Config.settleDelayMs timer draws := by
  simp [triggerOutputs, sleptMs]

/-- The two settle delays are all that is slept up to the return of the receive (R67, R69). -/
@[simp] theorem sleptMs_readOutputs (timer draws : Nat) (a : Ret) (b : RecvAnswer) :
    sleptMs (readOutputs timer draws a b) =
      Config.settleDelayMs timer draws + Config.settleDelayMs timer (draws + 1) := by
  simp [readOutputs, sleptMs_append, sleptMs]

@[simp] theorem sleptMs_batchOf (r : RawResponse) : sleptMs (batchOf r) = 0 := by
  simp [batchOf, sleptMs]

/-- A poll whose receive does not return has slept twice and stays at R_RECV (U12). -/
theorem execPoll_receive_unanswered {a : Ret} {rs : List Ret} (hs : s.sends = a :: rs) (ca : a.toInt = 1)
    (hr : s.recvs = []) : execPoll s = .next ((s.asked a rs).sleep.goto .rRecv) := by
  have read := execReadState_trigger_accepted hs ca (memRead_waiting (s := (s.asked a rs).sleep.goto .rRecv) _ hr)
  calc execPoll s
    _ = _ := execPoll_of_read read
    _ = _ := runExpansion_append (runExpansion_performAll_of_not_mem (by simp)) _
    _ = _ := runExpansion_performAll_of_not_mem (by simp)

/-- A poll whose trigger fails sleeps once. -/
theorem execPoll_sleeps_once {a : Ret} {rs : List Ret} (hs : s.sends = a :: rs) (ca : a.toInt ≠ 1) :
    ∃ t out, execPoll s = .next t ∧ t.trace = s.trace ++ out ∧
      sleptMs out = Config.settleDelayMs s.timer s.draws := by
  obtain ⟨t, poll, ended⟩ := exists_pollEnded_of_failed_read (execReadState_trigger_failed hs ca) rfl rfl (by simp)
    (asked_trace s a rs)
  exact ⟨t, _, poll, ended.trace, by simp [sleptMs_append, sleptMs]⟩

/-- A poll whose trigger is accepted sleeps twice, however its receive ends, and if it does not return. -/
theorem execPoll_sleeps_twice {a : Ret} {rs : List Ret} (hs : s.sends = a :: rs) (ca : a.toInt = 1) :
    ∃ t out, execPoll s = .next t ∧ t.trace = s.trace ++ out ∧
      sleptMs out = Config.settleDelayMs s.timer s.draws + Config.settleDelayMs s.timer (s.draws + 1) := by
  cases hr : s.recvs with
  | nil =>
    refine ⟨_, triggerOutputs s.timer s.draws a ++ [.delay (.sleep s.timer (s.draws + 1))],
      execPoll_receive_unanswered hs ca hr, ?_, by simp [sleptMs_append, sleptMs]⟩
    simp [triggerOutputs]
  | cons b rr =>
    by_cases cb : b.ret.toInt = 6
    · obtain ⟨t, poll, ended⟩ := exists_pollEnded_of_successful_read (execReadState_receive_accepted hs ca hr cb) rfl
        rfl (by simp) (answered_trace s a rs b rr)
      exact ⟨t, _, poll, ended.trace, by simp [sleptMs_append, sleptMs]⟩
    · obtain ⟨t, poll, ended⟩ := exists_pollEnded_of_failed_read (execReadState_receive_failed hs ca hr cb) rfl rfl
        (by simp) (answered_trace s a rs b rr)
      exact ⟨t, _, poll, ended.trace, by simp [sleptMs_append, sleptMs]⟩

/-! ### Running commands come to their end (R138) -/

/-- How many sends at the most stand between a step and IDLE. -/
def SeqStep.sendsLeft : SeqStep → Nat
  | .hSend1 => 2
  | .hBusy | .hSend2 | .rWait1 | .rTrig => 1
  | _ => 0

/-- How many receives at the most stand between a step and IDLE. -/
def SeqStep.recvsLeft : SeqStep → Nat
  | .rWait1 | .rTrig | .rWait2 | .rRecv => 1
  | _ => 0

/-- The transport holds an answer for each call the running command can still make. -/
def State.Answered (s : State) : Prop :=
  s.seq.sendsLeft ≤ s.sends.length ∧ s.seq.recvsLeft ≤ s.recvs.length

/-- With every call answered, the sequencer comes nearer to IDLE, and the calls it can still make are answered. -/
theorem SeqMove.comes_nearer (m : SeqMove s t) (busy : s.seq ≠ .idle) (h : s.Answered) :
    t.seq.stepsLeft < s.seq.stepsLeft ∧ t.Answered := by
  obtain ⟨sends, recvs⟩ := h
  cases m with
  | waiting q => exact absurd q busy
  | pendingSend q unanswered => obtain q | q | q := q <;> simp [q, unanswered, SeqStep.sendsLeft] at sends
  | pendingRecv q unanswered => simp [q, unanswered, SeqStep.recvsLeft] at recvs
  | _ => simp_all [SeqStep.stepsLeft, State.Answered, SeqStep.sendsLeft, SeqStep.recvsLeft]

/-- With a quiet host and every call answered, a consistent engine comes to IDLE within the steps it has left. -/
theorem runSteps_reaches_idle {k : Nat} (h : s.Consistent) (quiet : s.host = []) (answered : s.Answered)
    (hk : s.seq.stepsLeft ≤ k) : ∃ t, runSteps k s = .next t ∧ t.seq = .idle ∧ t.Consistent := by
  induction k generalizing s with
  | zero =>
    have idle : s.seq = .idle := by_contra fun busy => Nat.not_le.mpr (SeqStep.stepsLeft_pos busy) hk
    exact ⟨s, runSteps_zero s, idle, h⟩
  | succ k ih =>
    by_cases idle : s.seq = .idle
    · exact ⟨s, runSteps_idle idle quiet _, idle, h⟩
    obtain ⟨u, e⟩ := sequencerStep_answers_of_consistent h
    have m := sequencerStep_move e
    obtain ⟨nearer, answered'⟩ := m.comes_nearer idle answered
    rw [runSteps_next ((step_of_no_host quiet).trans e)]
    exact ih (m.keeps_consistent h) (m.host.trans quiet) answered' (by omega)

theorem SeqStep.sendsLeft_le (q : SeqStep) : q.sendsLeft ≤ 2 := by cases q <;> decide

theorem SeqStep.recvsLeft_le (q : SeqStep) : q.recvsLeft ≤ 1 := by cases q <;> decide

theorem SeqStep.stepsLeft_le (q : SeqStep) : q.stepsLeft ≤ 10 := by cases q <;> decide

end Sys2Proof.Machine
end

section
/-! The obligations of the reset and hazards family. -/

namespace Sys2Proof.Machine

/-- Settles O33: the trigger's verdict decides whether a poll sleeps once or twice, and each delay is in its range. -/
theorem tickSleepsWithinItsBounds : Obligations.TickSleepsWithinItsBounds := by
  intro s t a rs hs poll
  obtain ⟨least, most⟩ := settleDelay_range s.timer s.draws
  by_cases ca : a.toInt = 1
  · obtain ⟨u, out, poll', htrace, slept⟩ := execPoll_sleeps_twice hs ca
    obtain rfl : u = t := Host.Outcome.next.inj (poll'.symm.trans poll)
    obtain ⟨least', most'⟩ := settleDelay_range s.timer (s.draws + 1)
    exact ⟨out, htrace, fun failed => absurd ca failed, fun _ _ _ _ _ => by rw [slept]; constructor <;> linarith⟩
  · obtain ⟨u, out, poll', htrace, slept⟩ := execPoll_sleeps_once hs ca
    obtain rfl : u = t := Host.Outcome.next.inj (poll'.symm.trans poll)
    exact ⟨out, htrace, fun _ => by rw [slept]; exact ⟨least, most⟩, fun accepted => absurd accepted ca⟩

/-- Settles O41: a quiet step refuses nothing, the commands presented are ones the lifecycle accepts, and a reset comes
at IDLE. -/
theorem dutifulHostIsServed : Obligations.DutifulHostIsServed := by
  intro s h duty
  by_cases reset : s.host.head? = some .reset
  · obtain ⟨rest, hh⟩ := List.head?_eq_some_iff.mp reset
    have idle : s.seq = .idle := (hostObeys_of_reset hh).mp duty
    exact ⟨_, [], (step_reset hh).trans (resetEngine_idle idle), fun noReset => absurd reset noReset, nofun⟩
  · obtain ⟨t, out, e, htrace, notRefused⟩ := served_of_duty h duty reset
    exact ⟨t, out, e, fun _ => htrace, notRefused⟩

/-- Settles O50: every step of a running command leaves fewer to take, and IDLE is where the transient registers are
void. -/
theorem runningCommandsComplete : Obligations.RunningCommandsComplete := by
  intro s h quiet sends recvs
  have answered : s.Answered := ⟨s.seq.sendsLeft_le.trans sends, s.seq.recvsLeft_le.trans recvs⟩
  obtain ⟨t, run, idle, h'⟩ := runSteps_reaches_idle h quiet answered s.seq.stepsLeft_le
  exact ⟨10, t, le_rfl, run, idle, (consistent_of_idle idle).mp h'⟩

/-- Settles O7: the event is a reset of the engine, with the event itself consumed. -/
theorem resetEventRestoresTheResetState : Obligations.ResetEventRestoresTheResetState :=
  fun _ _ hh => ⟨fun q => (step_reset hh).trans (resetEngine_idle q),
    fun q => (step_reset hh).trans (resetEngine_busy q)⟩

end Sys2Proof.Machine
end

section
/-! The obligation of the calls that do not return. -/

namespace Sys2Proof.Machine

/-- The instructions that send are each a send of one frame (R68, R74, R76). -/
theorem exec_eq_sendFrame {i : Instr}
    (sends : i = .hSend1 ∨ i = .hSend2 ∨ i = .rTrig ∨ i = .init1 ∨ i = .init2 ∨ i = .trig) :
    ∃ frame command onOk, exec i = sendFrame frame command onOk := by
  obtain rfl | rfl | rfl | rfl | rfl | rfl := sends
  case inl | inr.inr.inr.inl => -- H_SEND1, INIT1
    exact ⟨Config.init1Frame, .attach, fun t => .next (t.goto .hBusy), rfl⟩
  case inr.inl | inr.inr.inr.inr.inl => -- H_SEND2, INIT2
    exact ⟨Config.init2Frame, .attach, fun t => .next ((t.setLs .polling).complete .ok), rfl⟩
  case inr.inr.inl | inr.inr.inr.inr.inr => -- R_TRIG, TRIG
    exact ⟨Config.trigFrame, .tick, fun t => .next (t.goto .rWait2), rfl⟩

/-- Settles O23: a send instruction and the receive both wait while the transport holds no answer. -/
theorem unansweredCallsDoNotReturn : Obligations.UnansweredCallsDoNotReturn := by
  refine fun s => ⟨fun noAnswer i sends => ?_, memRead_waiting acceptResponse⟩
  obtain ⟨frame, command, onOk, send⟩ := exec_eq_sendFrame sends
  rw [send]
  exact sendFrame_waiting frame command onOk noAnswer

end Sys2Proof.Machine
end
